-- ==== Sys2Proof/Word.lean ====
section
/-! DEFINITION. Word types of the SCE/SPU: bytes and the number formats the registers give names to (spec 00_scope.md R12). -/

namespace Sys2Proof

/-- A byte, bit 0 least significant (R12). -/
abbrev Byte := BitVec 8

/-- A byte sequence, first byte on the wire first (R12). -/
abbrev Bytes := List Byte

/-- `b^n` of R12: the byte `b` repeated `n` times. -/
abbrev Byte.rep (b : Byte) (n : Nat) : Bytes := List.replicate n b

end Sys2Proof
end

