-- ==== Sys2Proof/Config.lean ====
section
/-! DEFINITION. What an implementation fixes: the constants of 00_scope.md R8, the decided parameters of R10, and the
four MPSSE command bytes of R9, which stay uninterpreted. -/

namespace Sys2Proof

/-- The four MPSSE command bytes of R9, pairwise distinct so that the stream parses (R84). The default values only show
that such a set exists; they are nobody's choice and nothing can be proved from them, because `Config.mpsse` is opaque. -/
structure MpsseBytes where
  setLow : Byte := 0
  out : Byte := 1
  outIn : Byte := 2
  wait : Byte := 3
  setLow_ne_out : setLow ≠ out := by decide
  setLow_ne_outIn : setLow ≠ outIn := by decide
  setLow_ne_wait : setLow ≠ wait := by decide
  out_ne_outIn : out ≠ outIn := by decide
  out_ne_wait : out ≠ wait := by decide
  outIn_ne_wait : outIn ≠ wait := by decide
deriving DecidableEq, Repr, Inhabited

/-- The implementation's MPSSE command bytes: any four pairwise distinct bytes (R9, D5, U4; log 7). -/
opaque Config.mpsse : MpsseBytes

/-- A byte no rule states: the status byte a poll would take from beyond the end of its reply. No state a run reaches
uses it (log 20). -/
opaque Config.unstatedByte : Nat → Byte

namespace Config

/-- `OPC_SET_LOW` (R9): the "set low data bits" command byte. -/
def opcSetLow : Byte := mpsse.setLow
/-- `OPC_OUT` (R9): the clock-out-only transfer header. Which bit of a payload byte goes first, and on which clock edge, is a
property of this byte, so the model states neither (R59). -/
def opcOut : Byte := mpsse.out
/-- `OPC_OUT_IN` (R9): the bidirectional transfer header. The model states no bit order or clock edge for it either (R59). -/
def opcOutIn : Byte := mpsse.outIn
/-- `OPC_WAIT` (R9): the idle-clocking primitive. -/
def opcWait : Byte := mpsse.wait

/-- `DUMMY_BYTE` (R10, D10; log 16). -/
def dummyByte : Byte := 0xFF
/-- `FILL_BYTE` (R8): the filler bytes of `read`. -/
def fillByte : Byte := 0xFF
/-- `CBUF_CAP` (R10, D16; log 16): capacity of the command buffer and bound on owed response bytes. -/
def cbufCap : Nat := 131072
/-- `MAX_XFER` (R8): the largest count a transfer header carries. -/
def maxXfer : Nat := 65536
/-- `PAGE` (R8). -/
def page : Nat := 256
/-- `BLOCK` (R8): the 64 KB erase block; only the host uses it (R204). -/
def block : Nat := 65536
/-- The largest `n` of `READ` (R128): `4 + n` fits one transfer. -/
def maxRead : Nat := 65532
/-- The size of the 24-bit flash address space (R8, R51). -/
def flashSpace : Nat := 2 ^ 24

/-! The nine SPI flash opcodes (R8, R86). -/

def spiIdentify : Byte := 0x9F
def spiPowerUp : Byte := 0xAB
def spiPowerDown : Byte := 0xB9
def spiWriteEnable : Byte := 0x06
def spiBulkErase : Byte := 0xC7
def spiSectorErase : Byte := 0xD8
def spiPageProgram : Byte := 0x02
def spiRead : Byte := 0x03
def spiReadStatus : Byte := 0x05

end Config
end Sys2Proof
end

