-- ==== Sys2Proof/Syntax.lean ====
section
/-! DEFINITION. The instructions of the SCE/SPU: one constructor per row of spec/opcode_table.json, in the table's order.
Layer 1 is the request operations (30_encoding.md R70 to R73), layer 2 the MPSSE stream items (R78 to R80), layer 3 the
SPI flash commands (R85, R86). -/

namespace Sys2Proof

inductive Instr where
  /-- `CFG_PINS dir, sel, desel` (R100): `a[7:0]`, `a[15:8]`, `a[23:16]`. -/
  | cfgPins (dir sel desel : Byte)
  /-- `CFG_CLOCK hz` (R101): `a`. -/
  | cfgClock (hz : BitVec 32)
  /-- `CS_SELECT` (R102). -/
  | csSelect
  /-- `CS_DESELECT` (R103). -/
  | csDeselect
  /-- `DATA_OUT n` (R104). -/
  | dataOut (n : BitVec 17)
  /-- `DATA_OUT_IN n` (R105). -/
  | dataOutIn (n : BitVec 17)
  /-- `WAIT_MASK c` (R106): `c` is the field `n`, a count of byte periods (C2). -/
  | waitMask (c : BitVec 17)
  /-- `BYTES [b0 ...]` (R107): the field `n` is the payload's length. -/
  | bytes (pay : Bytes)
  /-- `FLUSH` (R108). -/
  | flush
  /-- `IDENTIFY` (R120). -/
  | identify
  /-- `POWER_UP` (R121). -/
  | powerUp
  /-- `POWER_DOWN` (R122). -/
  | powerDown
  /-- `WRITE_ENABLE` (R123). -/
  | writeEnable
  /-- `BULK_ERASE` (R124). -/
  | bulkErase
  /-- `SECTOR_ERASE addr` (R125). -/
  | sectorErase (addr : BitVec 24)
  /-- `PROGRAM_PAGE addr, pay` with `pace = 0` (R127): the field `n` is the payload's length. -/
  | programPage (addr : BitVec 24) (pay : Bytes)
  /-- `PROGRAM_PAGE addr, pay, pace=budget_us` with `pace = 1` (R126, R127): `a` is the budget. -/
  | programPagePace (addr : BitVec 24) (pay : Bytes) (budgetUs : BitVec 32)
  /-- `READ addr, n` (R128). -/
  | read (addr : BitVec 24) (n : BitVec 17)
  /-- `WAIT_READY poll_ms, budget_ms` (R140): `a` and `b`. -/
  | waitReady (pollMs budgetMs : BitVec 32)
  /-- Reserved selectors 0x12 and 0x13 (R73): the selector's low bit, the other 123 bits of the word, the payload. -/
  | reserved12 (sel : BitVec 1) (rest : BitVec 123) (pay : Bytes)
  /-- Reserved selectors 0x14 to 0x17 (R73): the selector's two low bits, the rest of the word, the payload. -/
  | reserved14 (sel : BitVec 2) (rest : BitVec 123) (pay : Bytes)
  /-- Reserved selectors 0x18 to 0x1F (R73): the selector's three low bits, the rest of the word, the payload. -/
  | reserved18 (sel : BitVec 3) (rest : BitVec 123) (pay : Bytes)
  /-- Format `G`, set low data bits (R78): output value, then pin direction. -/
  | mpsseSetLow (value dir : Byte)
  /-- Format `T` with `OPC_OUT` (R79): the header for `n` bytes and its `n` payload bytes. -/
  | mpsseOut (payload : Bytes)
  /-- Format `T` with `OPC_OUT_IN` (R79): the header for `n` bytes and its `n` payload bytes. -/
  | mpsseOutIn (payload : Bytes)
  /-- Format `W` (R80): the count field as sent, that is the count of byte periods less one. -/
  | mpsseWait (countField : BitVec 16)
  /-- SPI 0x9F, format `F3` (R86): the three dummy bytes. -/
  | spiIdentify (d1 d2 d3 : Byte)
  /-- SPI 0xAB, format `F0` (R86). -/
  | spiPowerUp
  /-- SPI 0xB9, format `F0` (R86). -/
  | spiPowerDown
  /-- SPI 0x06, format `F0` (R86). -/
  | spiWriteEnable
  /-- SPI 0xC7, format `F0` (R86). -/
  | spiBulkErase
  /-- SPI 0xD8, format `F1` (R86). -/
  | spiSectorErase64k (addr : BitVec 24)
  /-- SPI 0x02, format `F2` (R86): address and program data. -/
  | spiPageProgram (addr : BitVec 24) (data : Bytes)
  /-- SPI 0x03, format `F2` (R86): address and the number of filler bytes. -/
  | spiRead (addr : BitVec 24) (n : BitVec 17)
  /-- SPI 0x05, format `F3` (R86): the dummy byte. -/
  | spiReadStatus (d : Byte)
deriving DecidableEq, Repr

/-- What can stand at the block's door. `request` is the spec's request port: the 128-bit word and its payload (R70).
`mpsse` and `spi` are the model's own: the bytes of one stream item (R78 to R80) or of one SPI flash command (R85),
offered alone so that each row of the opcode table can be run (log 8). -/
inductive Offer where
  | request (req : BitVec 128) (pay : Bytes)
  | mpsse (item : Bytes)
  | spi (command : Bytes)
deriving DecidableEq, Repr

end Sys2Proof
end

