-- ==== Sys2Proof/WellFormed.lean ====
section
/-! DEFINITION. Which terms of `Instr` an encoding can carry: the ranges that the fields' types leave open. A request
that a rule refuses for its operand's value (a length of 0, a page crossing) is well formed: refusing it is its meaning. -/

namespace Sys2Proof

/-- The payload's length fits the 17-bit field `n` (R70, R71). -/
def fitsCount (pay : Bytes) : Bool := decide (pay.length < 2 ^ 17)

/-- A `T` item's payload has 1 to 65536 bytes (R79, R81). -/
def fitsTransfer (payload : Bytes) : Bool :=
  decide (1 ≤ payload.length) && decide (payload.length ≤ Config.maxXfer)

/-- The program data of SPI 0x02 has 1 to 256 bytes (R86). -/
def fitsPage (data : Bytes) : Bool :=
  decide (1 ≤ data.length) && decide (data.length ≤ Config.page)

/-- The filler of SPI 0x03 has 1 to 65532 bytes (R86). -/
def fitsRead (n : BitVec 17) : Bool :=
  decide (1 ≤ n.toNat) && decide (n.toNat ≤ Config.maxRead)

/-- The operands have values that the row's encoding can carry. -/
def wellFormed : Instr → Bool
  | .cfgPins _ _ _ => true
  | .cfgClock _ => true
  | .csSelect => true
  | .csDeselect => true
  | .dataOut _ => true
  | .dataOutIn _ => true
  | .waitMask _ => true
  | .bytes pay => fitsCount pay
  | .flush => true
  | .identify => true
  | .powerUp => true
  | .powerDown => true
  | .writeEnable => true
  | .bulkErase => true
  | .sectorErase _ => true
  | .programPage _ pay => fitsCount pay
  | .programPagePace _ pay _ => fitsCount pay
  | .read _ _ => true
  | .waitReady _ _ => true
  | .reserved12 _ _ _ => true
  | .reserved14 _ _ _ => true
  | .reserved18 _ _ _ => true
  | .mpsseSetLow _ _ => true
  | .mpsseOut payload => fitsTransfer payload
  | .mpsseOutIn payload => fitsTransfer payload
  | .mpsseWait _ => true
  | .spiIdentify _ _ _ => true
  | .spiPowerUp => true
  | .spiPowerDown => true
  | .spiWriteEnable => true
  | .spiBulkErase => true
  | .spiSectorErase64k _ => true
  | .spiPageProgram _ data => fitsPage data
  | .spiRead _ n => fitsRead n
  | .spiReadStatus _ => true

end Sys2Proof
end

