-- ==== Sys2Proof/Decode.lean ====
section
/-! DEFINITION. The three encodings of 30_encoding.md: byte-order helpers (R14), the request word (R70 to R73), the MPSSE
stream items (R78 to R84) and the SPI flash commands (R85, R86); the decoder, total and rejecting by name, then the
encoder; and the reading of a row of spec/opcode_table.json. -/

namespace Sys2Proof

/-! ## Byte orders and headers (R14, R58) -/

/-- `le16(v)` (R14, R58 (a)): low byte first. -/
def le16 (v : BitVec 16) : Bytes := [v.extractLsb' 0 8, v.extractLsb' 8 8]

/-- `be24(a)` (R14, R58 (b)): most significant byte first. -/
def be24 (a : BitVec 24) : Bytes := [a.extractLsb' 16 8, a.extractLsb' 8 8, a.extractLsb' 0 8]

/-- The 16-bit field that sends a count of 1 to 65536 as the count less one (R79, R80, R81). -/
def countField (n : Nat) : BitVec 16 := BitVec.ofNat 16 (n - 1)

/-- `enc_out(n)` (R14, R79): the header only. -/
def encOut (n : Nat) : Bytes := Config.opcOut :: le16 (countField n)
/-- `enc_out_in(n)` (R14, R79): the header only. -/
def encOutIn (n : Nat) : Bytes := Config.opcOutIn :: le16 (countField n)
/-- `enc_wait(c)` (R14, R80) from the count field `c - 1`. -/
def encWaitField (f : BitVec 16) : Bytes := Config.opcWait :: le16 f
/-- `enc_wait(c)` (R14, R80). -/
def encWait (c : Nat) : Bytes := encWaitField (countField c)
/-- Format `G` (R78, D6; log 14): command, output value, pin direction. -/
def encSetLow (value dir : Byte) : Bytes := [Config.opcSetLow, value, dir]

/-- Formats `F0` and `F3` (R85): an opcode, then dummy bytes. -/
def cmdDummy (op : Byte) (dummies : Bytes) : Bytes := op :: dummies
/-- Formats `F1` and `F2` (R85): an opcode, the address, then data bytes. -/
def cmdAddr (op : Byte) (addr : BitVec 24) (data : Bytes) : Bytes := op :: (be24 addr ++ data)

/-! ## The fields of the request word (R70) -/

def Req.op (w : BitVec 128) : BitVec 5 := w.extractLsb' 0 5
def Req.pace (w : BitVec 128) : BitVec 1 := w.extractLsb' 5 1
def Req.rsvLow (w : BitVec 128) : BitVec 2 := w.extractLsb' 6 2
def Req.addr (w : BitVec 128) : BitVec 24 := w.extractLsb' 8 24
def Req.n (w : BitVec 128) : BitVec 17 := w.extractLsb' 32 17
def Req.rsvHigh (w : BitVec 128) : BitVec 15 := w.extractLsb' 49 15
def Req.a (w : BitVec 128) : BitVec 32 := w.extractLsb' 64 32
def Req.b (w : BitVec 128) : BitVec 32 := w.extractLsb' 96 32
/-- `a[31:24]`, which `CFG_PINS` leaves zero (R73, R100). -/
def Req.aTop (w : BitVec 128) : BitVec 8 := w.extractLsb' 88 8
/-- Bits 127:5, everything but the selector. -/
def Req.rest (w : BitVec 128) : BitVec 123 := w.extractLsb' 5 123

/-- The request word with its fields in place and its reserved bits zero (R70). -/
def Req.word (op : BitVec 5) (pace : BitVec 1) (addr : BitVec 24) (n : BitVec 17) (a b : BitVec 32) : BitVec 128 :=
  b ++ a ++ 0#15 ++ n ++ addr ++ 0#2 ++ pace ++ op

/-! ## Illegal requests (R73) -/

/-- Why a request, or a stream-level offer, is no instruction. -/
inductive Illegal where
  /-- Bits 7:6 or 63:49 are not zero. -/
  | reservedBits
  /-- `pace` is 1 for an operation other than `PROGRAM_PAGE`. -/
  | paceField
  /-- `addr` is not zero and not used. -/
  | addrField
  /-- `n` is not zero and not used. -/
  | countField
  /-- `a`, or the part of it the operation does not use, is not zero. -/
  | aField
  /-- `b` is not zero and not used. -/
  | bField
  /-- The payload's length is not `n`, or there is a payload and the operation takes none. -/
  | payloadLength
  /-- The bytes are not exactly one MPSSE stream item (R84). -/
  | streamItem
  /-- The bytes are not one of the nine SPI flash commands (R86). -/
  | spiCommand
deriving DecidableEq, Repr

/-- The fields an operation uses: the column of R72. -/
structure Uses where
  pace : Bool := false
  addr : Bool := false
  n : Bool := false
  a : Bool := false
  b : Bool := false
  pay : Bool := false
deriving DecidableEq, Repr

/-- R72, by selector; `PROGRAM_PAGE` uses `a` when `pace = 1` only (R73). Reserved selectors use nothing. -/
def usesOf (w : BitVec 128) : Uses :=
  match (Req.op w).toNat with
  | 0x00 => { a := true }
  | 0x01 => { a := true }
  | 0x04 => { n := true }
  | 0x05 => { n := true }
  | 0x06 => { n := true }
  | 0x07 => { n := true, pay := true }
  | 0x0E => { addr := true }
  | 0x0F => { pace := true, addr := true, n := true, a := Req.pace w == 1#1, pay := true }
  | 0x10 => { addr := true, n := true }
  | 0x11 => { a := true, b := true }
  | _ => {}

/-- The reason of the first check that fails, in order. -/
def firstFailing {α : Type} : List (Bool × α) → Option α
  | [] => none
  | (fails, reason) :: rest => if fails then some reason else firstFailing rest

/-- The clauses of R73 but for the reserved selectors, each with what it finds wrong. -/
def illegalChecks (w : BitVec 128) (pay : Bytes) : List (Bool × Illegal) :=
  let u := usesOf w
  [ (Req.rsvLow w != 0 || Req.rsvHigh w != 0, .reservedBits),
    (!u.pace && Req.pace w != 0, .paceField),
    (!u.addr && Req.addr w != 0, .addrField),
    (!u.n && Req.n w != 0, .countField),
    (!u.a && Req.a w != 0 || Req.op w == 0 && Req.aTop w != 0, .aField),
    (!u.b && Req.b w != 0, .bField),
    (if u.pay then pay.length != (Req.n w).toNat else !pay.isEmpty, .payloadLength) ]

/-- Selectors 0x12 to 0x1F are reserved (R72, R73). -/
def isReserved (w : BitVec 128) : Bool := decide (0x12 ≤ (Req.op w).toNat)

/-! ## The decoder -/

/-- The instruction a request word's selector and fields name (R72). -/
def buildRequest (w : BitVec 128) (pay : Bytes) : Instr :=
  match (Req.op w).toNat with
  | 0x00 => .cfgPins (w.extractLsb' 64 8) (w.extractLsb' 72 8) (w.extractLsb' 80 8)
  | 0x01 => .cfgClock (Req.a w)
  | 0x02 => .csSelect
  | 0x03 => .csDeselect
  | 0x04 => .dataOut (Req.n w)
  | 0x05 => .dataOutIn (Req.n w)
  | 0x06 => .waitMask (Req.n w)
  | 0x07 => .bytes pay
  | 0x08 => .flush
  | 0x09 => .identify
  | 0x0A => .powerUp
  | 0x0B => .powerDown
  | 0x0C => .writeEnable
  | 0x0D => .bulkErase
  | 0x0E => .sectorErase (Req.addr w)
  | 0x0F => if Req.pace w = 1#1 then .programPagePace (Req.addr w) pay (Req.a w) else .programPage (Req.addr w) pay
  | 0x10 => .read (Req.addr w) (Req.n w)
  | 0x11 => .waitReady (Req.a w) (Req.b w)
  | 0x12 => .reserved12 (w.extractLsb' 0 1) (Req.rest w) pay
  | 0x13 => .reserved12 (w.extractLsb' 0 1) (Req.rest w) pay
  | 0x14 => .reserved14 (w.extractLsb' 0 2) (Req.rest w) pay
  | 0x15 => .reserved14 (w.extractLsb' 0 2) (Req.rest w) pay
  | 0x16 => .reserved14 (w.extractLsb' 0 2) (Req.rest w) pay
  | 0x17 => .reserved14 (w.extractLsb' 0 2) (Req.rest w) pay
  | _ => .reserved18 (w.extractLsb' 0 3) (Req.rest w) pay

/-- The request decoder (R70 to R73). A reserved selector decodes to its own instruction, whose meaning is the refusal
`IllegalRequest` (log 10); every other illegal request is rejected by name. -/
def decodeRequest (w : BitVec 128) (pay : Bytes) : Except Illegal Instr :=
  if isReserved w then .ok (buildRequest w pay)
  else match firstFailing (illegalChecks w pay) with
    | some reason => .error reason
    | none => .ok (buildRequest w pay)

/-- The first `n` bytes and the rest, if there are `n`. -/
def takeExactly (n : Nat) (bs : Bytes) : Option (Bytes × Bytes) :=
  if bs.length < n then none else some (bs.take n, bs.drop n)

/-- One item from the front of an MPSSE stream, and the bytes after it (R84). -/
def parseItem : Bytes → Option (Instr × Bytes)
  | c :: x :: y :: rest =>
    if c = Config.opcSetLow then some (.mpsseSetLow x y, rest)
    else if c = Config.opcWait then some (.mpsseWait (y ++ x), rest)
    else if c = Config.opcOut then
      (takeExactly (x.toNat + 256 * y.toNat + 1) rest).map fun r => (.mpsseOut r.1, r.2)
    else if c = Config.opcOutIn then
      (takeExactly (x.toNat + 256 * y.toNat + 1) rest).map fun r => (.mpsseOutIn r.1, r.2)
    else none
  | _ => none

/-- A whole stream as its items, if it parses to the end with no item cut short (R84). Every item has at least three
bytes, so as much fuel as there are bytes is enough. -/
def parseWithFuel : Nat → Bytes → Option (List Instr)
  | _, [] => some []
  | 0, _ :: _ => none
  | fuel + 1, b :: bs =>
    match parseItem (b :: bs) with
    | none => none
    | some (item, rest) => (parseWithFuel fuel rest).map (item :: ·)

/-- The items of a stream (R84). -/
def parseStream (bs : Bytes) : Option (List Instr) := parseWithFuel bs.length bs

/-- Exactly one stream item and nothing after it. -/
def decodeItem (bs : Bytes) : Except Illegal Instr :=
  match parseItem bs with
  | some (item, []) => .ok item
  | _ => .error .streamItem

/-- The arguments of an SPI command with an address (formats `F1` and `F2`, R85). -/
def splitAddr : Bytes → Option (BitVec 24 × Bytes)
  | a2 :: a1 :: a0 :: data => some (a2 ++ a1 ++ a0, data)
  | _ => none

/-- One of the nine SPI flash commands of R86, whole. -/
def spiInstr (op : Byte) (args : Bytes) : Option Instr :=
  if op = Config.spiIdentify then
    match args with
    | [d1, d2, d3] => some (.spiIdentify d1 d2 d3)
    | _ => none
  else if op = Config.spiPowerUp then if args = [] then some .spiPowerUp else none
  else if op = Config.spiPowerDown then if args = [] then some .spiPowerDown else none
  else if op = Config.spiWriteEnable then if args = [] then some .spiWriteEnable else none
  else if op = Config.spiBulkErase then if args = [] then some .spiBulkErase else none
  else if op = Config.spiSectorErase then
    match splitAddr args with
    | some (addr, []) => some (.spiSectorErase64k addr)
    | _ => none
  else if op = Config.spiPageProgram then
    match splitAddr args with
    | some (addr, data) => if fitsPage data then some (.spiPageProgram addr data) else none
    | none => none
  else if op = Config.spiRead then
    match splitAddr args with
    | some (addr, data) =>
      if fitsRead (BitVec.ofNat 17 data.length) && decide (data = Config.fillByte.rep data.length)
          && decide (data.length < 2 ^ 17)
      then some (.spiRead addr (BitVec.ofNat 17 data.length)) else none
    | none => none
  else if op = Config.spiReadStatus then
    match args with
    | [d] => some (.spiReadStatus d)
    | _ => none
  else none

/-- The SPI command decoder (R86). -/
def decodeSpi : Bytes → Except Illegal Instr
  | [] => .error .spiCommand
  | op :: args =>
    match spiInstr op args with
    | some i => .ok i
    | none => .error .spiCommand

/-- The decoder: total, rejecting by name. -/
def decode : Offer → Except Illegal Instr
  | .request req pay => decodeRequest req pay
  | .mpsse item => decodeItem item
  | .spi command => decodeSpi command

/-! ## The encoder -/

/-- The request word of an operation that uses no field (R72). -/
def Req.bare (op : BitVec 5) : BitVec 128 := Req.word op 0 0 0 0 0

/-- The bytes and words of an instruction, from the same tables. -/
def encode : Instr → Offer
  | .cfgPins dir sel desel => .request (Req.word 0x00 0 0 0 (0#8 ++ desel ++ sel ++ dir) 0) []
  | .cfgClock hz => .request (Req.word 0x01 0 0 0 hz 0) []
  | .csSelect => .request (Req.bare 0x02) []
  | .csDeselect => .request (Req.bare 0x03) []
  | .dataOut n => .request (Req.word 0x04 0 0 n 0 0) []
  | .dataOutIn n => .request (Req.word 0x05 0 0 n 0 0) []
  | .waitMask c => .request (Req.word 0x06 0 0 c 0 0) []
  | .bytes pay => .request (Req.word 0x07 0 0 (BitVec.ofNat 17 pay.length) 0 0) pay
  | .flush => .request (Req.bare 0x08) []
  | .identify => .request (Req.bare 0x09) []
  | .powerUp => .request (Req.bare 0x0A) []
  | .powerDown => .request (Req.bare 0x0B) []
  | .writeEnable => .request (Req.bare 0x0C) []
  | .bulkErase => .request (Req.bare 0x0D) []
  | .sectorErase addr => .request (Req.word 0x0E 0 addr 0 0 0) []
  | .programPage addr pay => .request (Req.word 0x0F 0 addr (BitVec.ofNat 17 pay.length) 0 0) pay
  | .programPagePace addr pay budgetUs => .request (Req.word 0x0F 1 addr (BitVec.ofNat 17 pay.length) budgetUs 0) pay
  | .read addr n => .request (Req.word 0x10 0 addr n 0 0) []
  | .waitReady pollMs budgetMs => .request (Req.word 0x11 0 0 0 pollMs budgetMs) []
  | .reserved12 sel rest pay => .request (rest ++ 0b1001#4 ++ sel) pay
  | .reserved14 sel rest pay => .request (rest ++ 0b101#3 ++ sel) pay
  | .reserved18 sel rest pay => .request (rest ++ 0b11#2 ++ sel) pay
  | .mpsseSetLow value dir => .mpsse (encSetLow value dir)
  | .mpsseOut payload => .mpsse (encOut payload.length ++ payload)
  | .mpsseOutIn payload => .mpsse (encOutIn payload.length ++ payload)
  | .mpsseWait f => .mpsse (encWaitField f)
  | .spiIdentify d1 d2 d3 => .spi (cmdDummy Config.spiIdentify [d1, d2, d3])
  | .spiPowerUp => .spi (cmdDummy Config.spiPowerUp [])
  | .spiPowerDown => .spi (cmdDummy Config.spiPowerDown [])
  | .spiWriteEnable => .spi (cmdDummy Config.spiWriteEnable [])
  | .spiBulkErase => .spi (cmdDummy Config.spiBulkErase [])
  | .spiSectorErase64k addr => .spi (cmdAddr Config.spiSectorErase addr [])
  | .spiPageProgram addr data => .spi (cmdAddr Config.spiPageProgram addr data)
  | .spiRead addr n => .spi (cmdAddr Config.spiRead addr (Config.fillByte.rep n.toNat))
  | .spiReadStatus d => .spi (cmdDummy Config.spiReadStatus [d])

/-! ## Rows of spec/opcode_table.json (log 6)

The table numbers an instruction's bits from the first byte's least significant bit. A request row is 128 bits; the
reserved-selector rows fix bits of the first byte only; an SPI row fixes the first byte (or gives four); an MPSSE row is
24 bits. What a row gives no bits is zero: a payload is zero bytes, as many as the count says. -/

/-- The `k` lowest bytes of a number, least significant first. -/
def wordBytes (w : Nat) : Nat → Bytes
  | 0 => []
  | k + 1 => BitVec.ofNat 8 w :: wordBytes (w / 256) k

/-- The bytes of the SPI command whose first byte opens `w`, if that is one of the nine opcodes. -/
def spiTableBytes (w : Nat) : Option Bytes :=
  let op : Byte := BitVec.ofNat 8 w
  if op = Config.spiIdentify then some (wordBytes w 4)
  else if op = Config.spiPowerUp || op = Config.spiPowerDown || op = Config.spiWriteEnable || op = Config.spiBulkErase then
    some (wordBytes w 1)
  else if op = Config.spiSectorErase then some (wordBytes w 4)
  else if op = Config.spiPageProgram then some (wordBytes w 5)
  else if op = Config.spiRead then some (wordBytes w 4 ++ [Config.fillByte])
  else if op = Config.spiReadStatus then some (wordBytes w 2)
  else none

/-- The bytes of an MPSSE item: its three bytes, and a payload of zeros if it is a transfer. -/
def mpsseTableBytes (w : Nat) : Bytes :=
  let c : Byte := BitVec.ofNat 8 w
  wordBytes w 3 ++
    if c = Config.opcOut || c = Config.opcOutIn then (0 : Byte).rep (w / 256 % 65536 + 1) else []

/-- The payload that a table word of `BYTES` or `PROGRAM_PAGE` leaves out: `n` zero bytes. -/
def tablePayload (w : BitVec 128) : Bytes :=
  if (usesOf w).pay then (0 : Byte).rep (Req.n w).toNat else []

/-- The offer that a table word stands for. -/
def tableOffer (nbits w : Nat) : Offer :=
  let asRequest : Offer := .request (BitVec.ofNat 128 w) (tablePayload (BitVec.ofNat 128 w))
  if nbits = 24 then .mpsse (mpsseTableBytes w)
  else if nbits ≤ 40 then
    match spiTableBytes w with
    | some command => .spi command
    | none => asRequest
  else asRequest

/-- The instruction the decoder reads from the bits of a row of spec/opcode_table.json. -/
def decodeTableWord (nbits w : Nat) : Option Instr :=
  match decode (tableOffer nbits w) with
  | .ok i => some i
  | .error _ => none

end Sys2Proof
end

