-- ==== Sys2Proof/Machine/State.lean ====
section
/-! DEFINITION. The state of the SCE/SPU (10_state.md), the outcomes its requests end in (R29, R160, R165), the replies of
its environment (R54 to R57), and the machine right after reset (R41). -/

namespace Sys2Proof.Machine

/-- The faults of R160, code 0 apart. Codes 5 to 7 have no constructor (U15). -/
inductive FaultKind where
  | transportShortWrite
  | transportDisconnected
  | transportDriverError
  | waitTimeout
deriving DecidableEq, Repr

/-- The refusal reasons of R165, in the order of their codes 1 to 9. -/
inductive Reason where
  | illegalRequest
  | faulted
  | notConfigured
  | badConfig
  | badLength
  | pageCross
  | addrRange
  | cbufOverflow
  | zeroPoll
deriving DecidableEq, Repr

/-- `result` (R29): the outcome of the most recent request that ended. -/
inductive Result where
  | ok (data : Bytes)
  | refused (reason : Reason)
  | fault (kind : FaultKind)
deriving DecidableEq, Repr

/-- `spu_state` (R30, R141). -/
inductive SpuState where
  | idle
  | pollTx
  | pollRx
  | sleep
deriving DecidableEq, Repr

/-- `CR3 FAULT` and `CR4 CLEANUP_FAULT` (R34, R35): `none` is code 0. -/
structure FaultReg where
  kind : Option FaultKind
  info0 : BitVec 33
  info1 : BitVec 33
deriving DecidableEq, Repr

/-- Where the `Flush` of an immediate request stands (R53, R75 step 7): not running, `TxWrite` called, `TxRead` called.
The model's own name for a transfer in progress (log 2). -/
inductive FlushState where
  | idle
  | writing
  | reading
deriving DecidableEq, Repr

/-- What `extract` of R77 returns when the running flush ends: nothing, `s[1..3]` for `IDENTIFY`, `s[4 ..]` for `READ`. -/
inductive Extract where
  | nothing
  | identify
  | read (n : Nat)
deriving DecidableEq, Repr

/-- A reply to `TxWrite` (R54). `shortWrite actual` stands for `ShortWrite(actual, expected)`: `expected` is the length
written, and an `actual` not below it is taken as the largest legal one (log 11). A driver code is 32 bits (U11). -/
inductive TxReply where
  | ok
  | shortWrite (actual : Nat)
  | disconnected
  | driverError (code : BitVec 32)
deriving DecidableEq, Repr

/-- What the read side of the transport delivers: one whole response byte, with no bit order (R59), or an error (R55; log 12). -/
inductive RxEvent where
  | byte (b : Byte)
  | disconnected
  | driverError (code : BitVec 32)
deriving DecidableEq, Repr

/-- What the environment will say: the replies to `TxWrite` (R54), what the read side delivers (R55) and the `Wake`s of
the timer (R57). -/
structure Environment where
  txReplies : List TxReply
  rx : List RxEvent
  wakes : Nat
deriving DecidableEq, Repr

/-- The machine's state: plain data. -/
structure State where
  /-- `PINCFG.DIR_MASK` (R23). -/
  dirMask : Byte
  /-- `PINCFG.VAL_SELECT` (R23). -/
  valSelect : Byte
  /-- `PINCFG.VAL_DESELECT` (R23). -/
  valDeselect : Byte
  /-- `PINCFG.PINS_VALID` (R23). -/
  pinsValid : Bool
  /-- `CR1 SCKHZ` (R24). -/
  sckHz : BitVec 32
  /-- The command buffer (R25). -/
  cbuf : Bytes
  /-- `CR7 RESP_OWED` (R27). -/
  respOwed : Nat
  /-- The response buffer (R28). -/
  rbuf : Bytes
  /-- R29. -/
  result : Result
  /-- R30. -/
  spuState : SpuState
  /-- R31. -/
  pollMs : BitVec 32
  /-- R31. -/
  budgetMs : BitVec 32
  /-- `CR5 ELAPSED` (R32). -/
  elapsedMs : BitVec 33
  /-- `LAST_STATUS.STATUS_BYTE` (R33). -/
  statusByte : Byte
  /-- `LAST_STATUS.STATUS_VALID` (R33). -/
  statusValid : Bool
  /-- `CR3 FAULT` (R34). -/
  fault : FaultReg
  /-- `CR4 CLEANUP_FAULT` (R35). -/
  cleanupFault : FaultReg
  /-- The request latch (R20). -/
  req : BitVec 128
  /-- The payload latch (R20). -/
  pay : Bytes
  /-- The model's own (log 2). -/
  flush : FlushState
  /-- `base` of R75 step 6 and R142, held while the transfer runs (log 2). -/
  base : Nat
  /-- The slice the running flush returns (R77; log 2). -/
  extract : Extract
  /-- The reset input (R190). -/
  resetPin : Bool
  /-- What waits at the request port, oldest first (R70, R74). -/
  offers : List Offer
  /-- The write side of the transport: the argument of every `TxWrite` so far, oldest first (R50 (2); log 26).
  Whole bytes, in order; no bit order on the wires (R59). -/
  tx : List Bytes
  /-- The transport's coming replies to `TxWrite` (R54, R56; log 1). -/
  txReplies : List TxReply
  /-- The read side of the transport, to come (R50 (3), R55, R56; log 1, 12). -/
  rx : List RxEvent
  /-- How many `Wake` replies the timer will still give (R57; log 1). -/
  wakes : Nat
  /-- The environment that each coming reset leaves, the next reset's first: any value (R192, U18; log 13). -/
  afterReset : List Environment
deriving DecidableEq, Repr

/-- Why the machine would stop with a fault. There is no constructor: the block's own faults are latched and leave a next
state (R170), and the spec names nothing that stops the block (R164; log 23). Nobody raises it; safe. -/
inductive Fault where
deriving DecidableEq, Repr

/-- Why the machine gives no meaning. -/
inductive Refusal where
  /-- An instruction whose arm has no meaning yet, raised by `exec` alone; safe. No arm does. -/
  | notModelled (mnemonic : String)
  /-- A read of `CR9` or above (R37: "a model must refuse it"), raised by `State.readCR` alone; safe. -/
  | noSuchRegister (number : Nat)
deriving DecidableEq, Repr

/-- A fault register that holds nothing (R34, R35). -/
def FaultReg.clear : FaultReg := { kind := none, info0 := 0, info1 := 0 }

/-- The machine right after reset (R41, R191). The fields R41 leaves unspecified hold 0 or nothing (log 3), and so do the
interfaces and the model's own fields (log 4). -/
def State.reset : State where
  dirMask := 0
  valSelect := 0
  valDeselect := 0
  pinsValid := false
  sckHz := 0
  cbuf := []
  respOwed := 0
  rbuf := []
  result := .ok []
  spuState := .idle
  pollMs := 0
  budgetMs := 0
  elapsedMs := 0
  statusByte := 0
  statusValid := false
  fault := .clear
  cleanupFault := .clear
  req := 0
  pay := []
  flush := .idle
  base := 0
  extract := .nothing
  resetPin := false
  offers := []
  tx := []
  txReplies := []
  rx := []
  wakes := 0
  afterReset := []

end Sys2Proof.Machine
end

