-- ==== Sys2Proof/Machine/Flags.lean ====
section
/-! DEFINITION. The block's flags and the registers that are views of other state (R26, R36, R38), the numeric codes of
faults and refusals (R160, R165), and the host's register reads (R37). -/

namespace Sys2Proof.Machine

/-- `BUSY` (R36 bit 0, R38): a request is being executed. -/
def State.busy (s : State) : Bool := s.spuState != .idle || s.flush != .idle

/-- `FAULTED` (R36 bit 1, R38). -/
def State.faulted (s : State) : Bool := s.fault.kind.isSome

/-- `CLEANUP_FAULTED` (R36 bit 2). -/
def State.cleanupFaulted (s : State) : Bool := s.cleanupFault.kind.isSome

/-- `CLK_VALID` (R36 bit 4). -/
def State.clkValid (s : State) : Bool := s.sckHz != 0

/-- The flash busy flag (R33, R38): bit 0 of the status byte. -/
def busyFlag (statusByte : Byte) : Bool := statusByte.getLsbD 0

/-- The code of a state of the SPU (R30). -/
def SpuState.code : SpuState → BitVec 2
  | .idle => 0
  | .pollTx => 1
  | .pollRx => 2
  | .sleep => 3

/-- The fault codes of R160. -/
def FaultKind.code : FaultKind → BitVec 3
  | .transportShortWrite => 1
  | .transportDisconnected => 2
  | .transportDriverError => 3
  | .waitTimeout => 4

/-- `code` of a fault register (R34): 0 is none. -/
def FaultReg.code (f : FaultReg) : BitVec 3 :=
  match f.kind with
  | none => 0
  | some k => k.code

/-- The refusal codes of R165. -/
def Reason.code : Reason → Nat
  | .illegalRequest => 1
  | .faulted => 2
  | .notConfigured => 3
  | .badConfig => 4
  | .badLength => 5
  | .pageCross => 6
  | .addrRange => 7
  | .cbufOverflow => 8
  | .zeroPoll => 9

/-- `CR0 PINCFG` (R23), 25 bits. -/
def State.pincfg (s : State) : BitVec 25 :=
  BitVec.ofBool s.pinsValid ++ s.valDeselect ++ s.valSelect ++ s.dirMask

/-- `CR2 STATUS` (R36), 16 bits. -/
def State.statusWord (s : State) : BitVec 16 :=
  s.statusByte ++ s.spuState.code ++ BitVec.ofBool s.statusValid ++ BitVec.ofBool s.clkValid ++ BitVec.ofBool s.pinsValid
    ++ BitVec.ofBool s.cleanupFaulted ++ BitVec.ofBool s.faulted ++ BitVec.ofBool s.busy

/-- `CR6 CBUF_LEN` (R26), 18 bits. -/
def State.cbufLen (s : State) : BitVec 18 := BitVec.ofNat 18 s.cbuf.length

/-- `CR8 LAST_STATUS` (R33), 9 bits. -/
def State.lastStatus (s : State) : BitVec 9 := BitVec.ofBool s.statusValid ++ s.statusByte

/-- What a read of a control register gives (R37). The spec lays out no bits for `CR3` and `CR4`, so their three fields are
given by name (log 22). -/
inductive RegValue where
  | pincfg (v : BitVec 25)
  | sckHz (v : BitVec 32)
  | status (v : BitVec 16)
  | fault (code : BitVec 3) (info0 info1 : BitVec 33)
  | cleanupFault (code : BitVec 3) (info0 info1 : BitVec 33)
  | elapsed (v : BitVec 33)
  | cbufLen (v : BitVec 18)
  | respOwed (v : BitVec 18)
  | lastStatus (v : BitVec 9)
deriving DecidableEq, Repr

/-- The host's read of `CR<k>` (R37): at any time, with no side effect; `CR9` and above do not exist. -/
def State.readCR (s : State) (k : Nat) : Except Refusal RegValue :=
  match k with
  | 0 => .ok (.pincfg s.pincfg)
  | 1 => .ok (.sckHz s.sckHz)
  | 2 => .ok (.status s.statusWord)
  | 3 => .ok (.fault s.fault.code s.fault.info0 s.fault.info1)
  | 4 => .ok (.cleanupFault s.cleanupFault.code s.cleanupFault.info0 s.cleanupFault.info1)
  | 5 => .ok (.elapsed s.elapsedMs)
  | 6 => .ok (.cbufLen s.cbufLen)
  | 7 => .ok (.respOwed (BitVec.ofNat 18 s.respOwed))
  | 8 => .ok (.lastStatus s.lastStatus)
  | k => .error (.noSuchRegister k)

end Sys2Proof.Machine
end

