-- ==== Sys2Proof/Machine/Operands.lean ====
section
/-! DEFINITION. Every operand form and every computation on operands: the bytes an operation emits (R14, R78 to R86), the
tests on counts, addresses and pins (R81, R100, R127, R128), and the pacing count (R126). -/

namespace Sys2Proof.Machine

/-- `enc_select()` (R14, R78): depends on `PINCFG` only. -/
def State.encSelect (s : State) : Bytes := encSetLow s.valSelect s.dirMask
/-- `enc_deselect()` (R14, R78). -/
def State.encDeselect (s : State) : Bytes := encSetLow s.valDeselect s.dirMask
/-- `txn_out(p)` (R14, R82). -/
def State.txnOut (s : State) (p : Bytes) : Bytes := s.encSelect ++ encOut p.length ++ p ++ s.encDeselect
/-- `txn_out_in(p)` (R14, R82). -/
def State.txnOutIn (s : State) (p : Bytes) : Bytes := s.encSelect ++ encOutIn p.length ++ p ++ s.encDeselect

/-- The status-poll transaction (R140, R142). -/
def State.pollBytes (s : State) : Bytes := s.txnOutIn (cmdDummy Config.spiReadStatus [Config.dummyByte])

/-- `clamp(v, lo, hi)` (R126). -/
def clamp (v lo hi : Nat) : Nat := if v < lo then lo else if hi < v then hi else v

/-- `pace_count(budget_us)` (R126, D14; log 18), in byte periods. -/
def paceCount (budgetUs sckHz : BitVec 32) : Nat :=
  clamp (budgetUs.toNat * sckHz.toNat / 8000000) 1 Config.maxXfer

/-- The address's place inside its 256-byte page (R51, R61). -/
def pageOffset (addr : BitVec 24) : Nat := addr.toNat % Config.page

/-- The first address of the page (R51). -/
def pageBase (addr : BitVec 24) : Nat := addr.toNat - addr.toNat % Config.page

/-- The first address of the 64 KB erase block (R51). -/
def blockBase (addr : BitVec 24) : Nat := addr.toNat - addr.toNat % Config.block

/-- `PROGRAM_PAGE`'s emission (R127) before any pacing: write-enable transaction, then the program transaction. -/
def State.programBytes (s : State) (addr : BitVec 24) (pay : Bytes) : Bytes :=
  s.txnOut (cmdDummy Config.spiWriteEnable []) ++ s.txnOut (cmdAddr Config.spiPageProgram addr pay)

/-- `PROGRAM_PAGE`'s emission with `pace = 1` (R126, R127): the pacing primitive comes last. -/
def State.programPaceBytes (s : State) (addr : BitVec 24) (pay : Bytes) (budgetUs : BitVec 32) : Bytes :=
  s.programBytes addr pay ++ encWait (paceCount budgetUs s.sckHz)

/-- `READ`'s emission (R128). -/
def State.readBytes (s : State) (addr : BitVec 24) (n : Nat) : Bytes :=
  s.txnOutIn (cmdAddr Config.spiRead addr (Config.fillByte.rep n))

/-- `IDENTIFY`'s emission (R120), for given dummy bytes. -/
def State.identifyBytes (s : State) (d1 d2 d3 : Byte) : Bytes :=
  s.txnOutIn (cmdDummy Config.spiIdentify [d1, d2, d3])

/-- A single-opcode command's emission (R121 to R124). -/
def State.opcodeBytes (s : State) (op : Byte) : Bytes := s.txnOut (cmdDummy op [])

/-- `SECTOR_ERASE`'s emission (R125). -/
def State.sectorEraseBytes (s : State) (addr : BitVec 24) : Bytes := s.txnOut (cmdAddr Config.spiSectorErase addr [])

/-- How many bits of a byte are 1. -/
def popCount (x : Byte) : Nat := (List.range 8).countP fun i => x.getLsbD i

/-- The legality rule of `PINCFG` (R23, R100, D7): the two values differ in exactly one bit, and that bit is an output. -/
def pinsLegal (dir sel desel : Byte) : Bool :=
  popCount (sel ^^^ desel) == 1 && (sel ^^^ desel) &&& dir != 0

/-- A count of 0 or above `max` (R81, D8). -/
def badCount (n max : Nat) : Bool := n == 0 || decide (max < n)

/-- R61, R127: the payload would cross a page boundary. -/
def crossesPage (addr : BitVec 24) (n : Nat) : Bool := decide (Config.page < pageOffset addr + n)

/-- R128: the read would run past the top of the 24-bit space. -/
def pastTop (addr : BitVec 24) (n : Nat) : Bool := decide (Config.flashSpace < addr.toNat + n)

/-- The slice of the response that a request returns (R77): `base` is where its own response starts in `r`. -/
def extractData (x : Extract) (base : Nat) (r : Bytes) : Bytes :=
  match x with
  | .nothing => []
  | .identify => (r.drop (base + 1)).take 3
  | .read n => (r.drop (base + 4)).take n

end Sys2Proof.Machine
end

