-- ==== Sys2Proof/Machine/Ops.lean ====
section
/-! DEFINITION. The shared operations: fault entry and the way back (R170, R172, R190), refusal (R167), the command buffer
(R52), the calls to the transport and the timer (R53 to R57), the common execution order of a request (R75), and the
taking of an offer from the port (R20, R74). -/

namespace Sys2Proof.Machine

/-- What a meaning or a step answers. -/
abbrev Out := Host.Outcome State Fault Refusal

/-! ## Faults, and no return but reset -/

/-- The first-wins latches of R170: `FAULT`, then `CLEANUP_FAULT`, then nowhere (R34, R35, R173). -/
def State.latchFault (s : State) (kind : FaultKind) (info0 info1 : BitVec 33) : State :=
  if s.fault.kind = none then { s with fault := { kind := some kind, info0 := info0, info1 := info1 } }
  else if s.cleanupFault.kind = none then { s with cleanupFault := { kind := some kind, info0 := info0, info1 := info1 } }
  else s

/-- Fault entry, `raise Fault(kind, info0, info1)` (R170): latch, clear the buffer, end the request. -/
def State.raiseFault (s : State) (kind : FaultKind) (info0 info1 : BitVec 33) : State :=
  { s.latchFault kind info0 info1 with
    cbuf := [], respOwed := 0, spuState := .idle, flush := .idle, result := .fault kind }

/-- A call the block has made and whose reply it waits for (R54, R55, R57). -/
inductive Call where
  | txWrite (bytes : Bytes)
  | txRead (n : Nat)
  | sleep (ms : BitVec 32)
deriving DecidableEq, Repr

/-- The outstanding call, if any (R53, R141). -/
def State.call (s : State) : Option Call :=
  match s.spuState with
  | .pollTx => some (.txWrite s.cbuf)
  | .pollRx => some (.txRead s.respOwed)
  | .sleep => some (.sleep s.pollMs)
  | .idle =>
    match s.flush with
    | .idle => none
    | .writing => some (.txWrite s.cbuf)
    | .reading => some (.txRead s.respOwed)

/-- A reply to `TxRead(n)` (R55). -/
inductive RxReply where
  | bytes (r : Bytes)
  | disconnected
  | driverError (code : BitVec 32)
deriving DecidableEq, Repr

/-- The transport's `read` of `n` bytes from what the read side delivers (R55): it collects until there are `n` bytes or
an error comes, and otherwise gives no reply. With the reply, what is left to deliver (R64: the bytes read are consumed). -/
def collect : Nat → List RxEvent → Option (RxReply × List RxEvent)
  | 0, evs => some (.bytes [], evs)
  | _ + 1, [] => none
  | n + 1, .byte b :: evs =>
    match collect n evs with
    | some (.bytes r, rest) => some (.bytes (b :: r), rest)
    | other => other
  | _ + 1, .disconnected :: evs => some (.disconnected, evs)
  | _ + 1, .driverError code :: evs => some (.driverError code, evs)

/-- The outstanding call's reply is taken from what the environment has to say and ignored (R190); a `TxRead` that has
no reply yet takes nothing (log 13). -/
def State.abandonCall (s : State) : State :=
  match s.call with
  | none => s
  | some (.txWrite _) => { s with txReplies := s.txReplies.tail }
  | some (.txRead n) =>
    { s with rx := match collect n s.rx with
        | some (_, rest) => rest
        | none => s.rx }
  | some (.sleep _) => { s with wakes := s.wakes - 1 }

/-- The environment as it stands. -/
def State.environment (s : State) : Environment := { txReplies := s.txReplies, rx := s.rx, wakes := s.wakes }

/-- The environment after a reset, which is not reset with the block: any value (R192, U18), the next one of `afterReset`;
where none is given, the environment goes on, but for the abandoned call's reply (R190; log 13). -/
def State.environmentAfterReset (s : State) : Environment :=
  match s.afterReset with
  | env :: _ => env
  | [] => s.abandonCall.environment

/-- The reset event (R190), the only way out of a fault (R172): the block is as R41 says, with no byte sent; the waiting
offers stay, and the environment is what R192 leaves it (log 13). -/
def State.applyReset (s : State) : State :=
  { State.reset with
    offers := s.offers, tx := s.tx, txReplies := s.environmentAfterReset.txReplies,
    rx := s.environmentAfterReset.rx, wakes := s.environmentAfterReset.wakes, afterReset := s.afterReset.tail }

/-! ## Refusals and the order of checks -/

/-- `refuse(reason)` (R167): only `result` changes. -/
def State.refuse (s : State) (reason : Reason) : State := { s with result := .refused reason }

/-- A check and the reason it refuses with; `true` means that it fails. -/
abbrev Check := Bool × Reason

/-- The fault gate (R75 step 2, R171). -/
def State.gate (s : State) : Check := (s.faulted, .faulted)
/-- `needs_pins` (R75 step 3, R166). -/
def State.needPins (s : State) : Check := (!s.pinsValid, .notConfigured)
/-- The clock of `PROGRAM_PAGE` with `pace = 1` (R127, R166). -/
def State.needClock (s : State) : Check := (!s.clkValid, .notConfigured)
/-- The capacity check (R75 step 5) for an encoding `e` that owes `r` response bytes. -/
def State.room (s : State) (e : Bytes) (r : Nat) : Check :=
  (decide (Config.cbufCap < s.cbuf.length + e.length) || decide (Config.cbufCap < s.respOwed + r), .cbufOverflow)
/-- R81: a count of 0 or above `max`. -/
def countCheck (n max : Nat) : Check := (badCount n max, .badLength)

/-- A request that passed step 1 of R75: the first check that fails refuses it (R168), else `body` runs. -/
def State.request (s : State) (checks : List Check) (body : State → State) : Out :=
  match firstFailing checks with
  | some reason => .next (s.refuse reason)
  | none => .next (body s)

/-! ## The command buffer and the flush -/

/-- `Append(e)` and the owed response with it (R52, R75 step 6). -/
def State.append (s : State) (e : Bytes) (r : Nat) : State :=
  { s with cbuf := s.cbuf ++ e, respOwed := s.respOwed + r }

/-- A deferred operation (R75 steps 6 and 8): appended, and its result is `OK([])` at once (R77). -/
def State.defer (s : State) (e : Bytes) (r : Nat) : State := { s.append e r with result := .ok [] }

/-- The call `TxWrite(cbuf)`: the whole buffer goes to the transport (R53, R54). -/
def State.callTxWrite (s : State) : State := { s with tx := s.tx ++ [s.cbuf] }

/-- The start of `Flush()` (R53, D17): with an empty buffer it is over at once, else `TxWrite` is called. -/
def State.beginFlush (s : State) (x : Extract) : State :=
  if s.cbuf = [] then { s with rbuf := [], result := .ok [] }
  else { s.callTxWrite with flush := .writing, extract := x }

/-- The end of `Flush()` and of its request (R53, R75 step 8, R77), `r` being the response bytes. -/
def State.endFlush (s : State) (r : Bytes) : State :=
  { s with rbuf := r, cbuf := [], respOwed := 0, flush := .idle, result := .ok (extractData s.extract s.base r) }

/-- An immediate operation (R75 steps 6 and 7). -/
def State.immediate (s : State) (e : Bytes) (r : Nat) (x : Extract) : State :=
  ({ s.append e r with base := s.respOwed }).beginFlush x

/-- `IssuePoll()` (R142). -/
def State.issuePoll (s : State) : State :=
  { (s.append s.pollBytes 2).callTxWrite with base := s.respOwed, spuState := .pollTx }

/-! ## Replies of the transport -/

/-- The fault a reply to `TxWrite` raises (R160, R161), `len` being the length written (R54, D29). -/
def TxReply.error (len : Nat) : TxReply → Option (FaultKind × BitVec 33 × BitVec 33)
  | .ok => none
  | .shortWrite actual =>
    some (.transportShortWrite, BitVec.ofNat 33 (min actual (len - 1)), BitVec.ofNat 33 len)
  | .disconnected => some (.transportDisconnected, 0, 0)
  | .driverError code => some (.transportDriverError, 0, code.setWidth 33)

/-- Waiting for the reply to `TxWrite`: with none the block is held (R176); an error faults (R53, R147); else `onOk`. -/
def State.awaitWrite (s : State) (onOk : State → State) : State :=
  match s.txReplies with
  | [] => s
  | reply :: rest =>
    match reply.error s.cbuf.length with
    | some (kind, info0, info1) => ({ s with txReplies := rest }).raiseFault kind info0 info1
    | none => onOk { s with txReplies := rest }

/-- Waiting for the reply to `TxRead(resp_owed)`: with none the block is held (R176); an error faults (R53, R147, R160);
else `onBytes` gets the bytes. -/
def State.awaitRead (s : State) (onBytes : State → Bytes → State) : State :=
  match collect s.respOwed s.rx with
  | none => s
  | some (.bytes r, rest) => onBytes { s with rx := rest } r
  | some (.disconnected, rest) => ({ s with rx := rest }).raiseFault .transportDisconnected 1 0
  | some (.driverError code, rest) => ({ s with rx := rest }).raiseFault .transportDriverError 1 (code.setWidth 33)

/-! ## The port -/

/-- The port hands over its oldest offer: a request is latched (R20), and it waits no longer (R74). -/
def State.accept (s : State) (o : Offer) (rest : List Offer) : State :=
  match o with
  | .request req pay => { s with offers := rest, req := req, pay := pay }
  | .mpsse _ => { s with offers := rest }
  | .spi _ => { s with offers := rest }

/-- The block idle and not in reset, with `o` the oldest offer at its port. -/
def State.withOffer (s : State) (o : Offer) : State :=
  { s with offers := o :: s.offers, resetPin := false, spuState := .idle, flush := .idle }

end Sys2Proof.Machine
end

