-- ==== Sys2Proof/Machine/Configure.lean ====
section
/-! DEFINITION. The two configuration operations (40_primitives.md R100, R101). -/

namespace Sys2Proof.Machine

/-- The state R100 writes. -/
def State.setPins (s : State) (dir sel desel : Byte) : State :=
  { s with dirMask := dir, valSelect := sel, valDeselect := desel, pinsValid := true, result := .ok [] }

/-- The state R101 writes. -/
def State.setClock (s : State) (hz : BitVec 32) : State := { s with sckHz := hz, result := .ok [] }

/-- `CFG_PINS` (R100). -/
def execCfgPins (dir sel desel : Byte) (s : State) : Out :=
  s.request [s.gate, (!pinsLegal dir sel desel, .badConfig)] fun s => s.setPins dir sel desel

/-- `CFG_CLOCK` (R101). -/
def execCfgClock (hz : BitVec 32) (s : State) : Out :=
  s.request [s.gate, (hz == 0, .badConfig)] fun s => s.setClock hz

end Sys2Proof.Machine
end

