-- ==== Sys2Proof/Machine/Flash.lean ====
section
/-! DEFINITION. The flash commands (41_flash_commands.md R120 to R128). -/

namespace Sys2Proof.Machine

/-- A command that sends one transaction at once and returns nothing: R121 to R125. -/
def State.fireAndForget (s : State) (first : List Check) (e : Bytes) : Out :=
  s.request (first ++ [s.needPins, s.room e 0]) fun s => s.immediate e 0 .nothing

/-- `IDENTIFY` (R120). -/
def execIdentify (s : State) : Out :=
  let e := s.identifyBytes Config.dummyByte Config.dummyByte Config.dummyByte
  s.request [s.gate, s.needPins, s.room e 4] fun s => s.immediate e 4 .identify

/-- `POWER_UP` (R121). -/
def execPowerUp (s : State) : Out := s.fireAndForget [s.gate] (s.opcodeBytes Config.spiPowerUp)

/-- `POWER_DOWN` (R122): the one request the fault gate lets through (R171). -/
def execPowerDown (s : State) : Out := s.fireAndForget [] (s.opcodeBytes Config.spiPowerDown)

/-- `WRITE_ENABLE` (R123). -/
def execWriteEnable (s : State) : Out := s.fireAndForget [s.gate] (s.opcodeBytes Config.spiWriteEnable)

/-- `BULK_ERASE` (R124). -/
def execBulkErase (s : State) : Out := s.fireAndForget [s.gate] (s.opcodeBytes Config.spiBulkErase)

/-- `SECTOR_ERASE addr` (R125). -/
def execSectorErase (addr : BitVec 24) (s : State) : Out := s.fireAndForget [s.gate] (s.sectorEraseBytes addr)

/-- The checks of `PROGRAM_PAGE` before the clock's (R127). -/
def State.programChecks (s : State) (addr : BitVec 24) (pay : Bytes) : List Check :=
  [s.gate, s.needPins, countCheck pay.length Config.page, (crossesPage addr pay.length, .pageCross)]

/-- `PROGRAM_PAGE addr, pay` (R127, `pace = 0`). -/
def execProgramPage (addr : BitVec 24) (pay : Bytes) (s : State) : Out :=
  s.request (s.programChecks addr pay ++ [s.room (s.programBytes addr pay) 0]) fun s =>
    s.defer (s.programBytes addr pay) 0

/-- `PROGRAM_PAGE addr, pay, pace=budget_us` (R126, R127, `pace = 1`). -/
def execProgramPagePace (addr : BitVec 24) (pay : Bytes) (budgetUs : BitVec 32) (s : State) : Out :=
  s.request (s.programChecks addr pay ++ [s.needClock, s.room (s.programPaceBytes addr pay budgetUs) 0]) fun s =>
    s.defer (s.programPaceBytes addr pay budgetUs) 0

/-- The checks of `READ` (R128). -/
def State.readChecks (s : State) (addr : BitVec 24) (n : Nat) : List Check :=
  [s.gate, s.needPins, countCheck n Config.maxRead, (pastTop addr n, .addrRange),
    s.room (s.readBytes addr n) (4 + n)]

/-- `READ addr, n` (R128). -/
def execRead (addr : BitVec 24) (n : BitVec 17) (s : State) : Out :=
  s.request (s.readChecks addr n.toNat) fun s => s.immediate (s.readBytes addr n.toNat) (4 + n.toNat) (.read n.toNat)

end Sys2Proof.Machine
end

