-- ==== Sys2Proof/Machine/Poll.lean ====
section
/-! DEFINITION. `WAIT_READY` and the status-poll state machine (42_status_poll.md R140 to R147). -/

namespace Sys2Proof.Machine

/-- The start of a wait (R142). -/
def State.startWait (s : State) (pollMs budgetMs : BitVec 32) : State :=
  ({ s with pollMs := pollMs, budgetMs := budgetMs, elapsedMs := 0 }).issuePoll

/-- `WAIT_READY poll_ms, budget_ms` (R140, R142). -/
def execWaitReady (pollMs budgetMs : BitVec 32) (s : State) : Out :=
  s.request [s.gate, s.needPins, (pollMs == 0, .zeroPoll), s.room s.pollBytes 2] fun s => s.startWait pollMs budgetMs

/-- `POLL_TX` (R143, R147). -/
def State.onPollWrite (s : State) : State := s.awaitWrite fun s => { s with spuState := .pollRx }

/-- The status byte of a poll's reply (R144): `r[base + 1]`. A reply is always long enough in a state a run reaches
(log 20). -/
def State.polledByte (s : State) (r : Bytes) : Byte := r.getD (s.base + 1) (Config.unstatedByte (s.base + 1))

/-- What R144 writes when a poll's reply comes. -/
def State.storePoll (s : State) (r : Bytes) : State :=
  { s with rbuf := r, cbuf := [], respOwed := 0, statusByte := s.polledByte r, statusValid := true }

/-- The busy test (R145). -/
def State.busyTest (s : State) : State :=
  if busyFlag s.statusByte then { s with spuState := .sleep } else { s with spuState := .idle, result := .ok [] }

/-- `POLL_RX` (R144, R145, R147). -/
def State.onPollRead (s : State) : State := s.awaitRead fun s r => (s.storePoll r).busyTest

/-- `Wake` in `SLEEP` (R146). -/
def State.afterSleep (s : State) : State :=
  let s := { s with elapsedMs := s.elapsedMs + s.pollMs.setWidth 33 }
  if s.budgetMs.setWidth 33 < s.elapsedMs then s.raiseFault .waitTimeout s.elapsedMs (s.budgetMs.setWidth 33)
  else s.issuePoll

/-- `SLEEP` (R141, R146): held until the timer wakes the block (R57, R180). -/
def State.onSleep (s : State) : State :=
  match s.wakes with
  | 0 => s
  | k + 1 => ({ s with wakes := k }).afterSleep

end Sys2Proof.Machine
end

