-- ==== Sys2Proof/Machine/Primitives.lean ====
section
/-! DEFINITION. The encoder's primitives and the flush (40_primitives.md R102 to R108), with the replies a flush waits for
(20_memory.md R53). -/

namespace Sys2Proof.Machine

/-- `CS_SELECT` (R102). -/
def execCsSelect (s : State) : Out :=
  s.request [s.gate, s.needPins, s.room s.encSelect 0] fun s => s.defer s.encSelect 0

/-- `CS_DESELECT` (R103). -/
def execCsDeselect (s : State) : Out :=
  s.request [s.gate, s.needPins, s.room s.encDeselect 0] fun s => s.defer s.encDeselect 0

/-- `DATA_OUT n` (R104). -/
def execDataOut (n : BitVec 17) (s : State) : Out :=
  s.request [s.gate, countCheck n.toNat Config.maxXfer, s.room (encOut n.toNat) 0] fun s => s.defer (encOut n.toNat) 0

/-- `DATA_OUT_IN n` (R105): owes `n` response bytes. -/
def execDataOutIn (n : BitVec 17) (s : State) : Out :=
  s.request [s.gate, countCheck n.toNat Config.maxXfer, s.room (encOutIn n.toNat) n.toNat] fun s =>
    s.defer (encOutIn n.toNat) n.toNat

/-- `WAIT_MASK c` (R106; log 17). -/
def execWaitMask (c : BitVec 17) (s : State) : Out :=
  s.request [s.gate, countCheck c.toNat Config.maxXfer, s.room (encWait c.toNat) 0] fun s => s.defer (encWait c.toNat) 0

/-- `BYTES` (R107). -/
def execBytes (pay : Bytes) (s : State) : Out :=
  s.request [s.gate, countCheck pay.length Config.maxXfer, s.room pay 0] fun s => s.defer pay 0

/-- `FLUSH` (R108). -/
def execFlush (s : State) : Out := s.request [s.gate] fun s => s.beginFlush .nothing

/-- The reply to a flush's `TxWrite` (R53): read the owed response, or be done if nothing is owed. -/
def State.onFlushWrite (s : State) : State :=
  s.awaitWrite fun s => if s.respOwed = 0 then s.endFlush [] else { s with flush := .reading }

/-- The reply to a flush's `TxRead` (R53). -/
def State.onFlushRead (s : State) : State := s.awaitRead fun s r => s.endFlush r

end Sys2Proof.Machine
end

