-- ==== Sys2Proof/Machine/Reserved.lean ====
section
/-! DEFINITION. The reserved selectors (30_encoding.md R72, R73): each is refused with `IllegalRequest`, before every other
check (R168), and changes nothing but `result` (log 10). -/

namespace Sys2Proof.Machine

/-- The meaning of an illegal request (R73, R75 step 1). -/
def State.illegalRequest (s : State) : Out := .next (s.refuse .illegalRequest)

/-- Selectors 0x12 and 0x13. -/
def execReserved12 (s : State) : Out := s.illegalRequest

/-- Selectors 0x14 to 0x17. -/
def execReserved14 (s : State) : Out := s.illegalRequest

/-- Selectors 0x18 to 0x1F. -/
def execReserved18 (s : State) : Out := s.illegalRequest

end Sys2Proof.Machine
end

