-- ==== Sys2Proof/Machine/Stream.lean ====
section
/-! DEFINITION. The stream-level rows of the opcode table (log 8). The block executes no MPSSE item and no SPI command: it
EMITS them. Their meaning is that emission alone, by the deferred steps of R75: an MPSSE item appends its bytes (R78 to
R80); an SPI command appends the transaction that carries it (R82, R85, R86), with the checks its semantics rule makes on
the operands it shares with the request. The response bytes an item makes the engine return are owed (R76). -/

namespace Sys2Proof.Machine

/-- The emission of one stream item by the deferred steps of R75. -/
def State.emitItem (s : State) (first : List Check) (e : Bytes) (r : Nat) : Out :=
  s.request (s.gate :: first ++ [s.room e r]) fun s => s.defer e r

/-- The emission of the transaction `e` that carries an SPI command (R82): it needs the pins (R166). -/
def State.emitCommand (s : State) (own : List Check) (e : Bytes) (r : Nat) : Out :=
  s.emitItem (s.needPins :: own) e r

/-- Format `G` (R78). -/
def execMpsseSetLow (value dir : Byte) (s : State) : Out := s.emitItem [] (encSetLow value dir) 0

/-- Format `T`, clock out only (R79). -/
def execMpsseOut (payload : Bytes) (s : State) : Out :=
  s.emitItem [countCheck payload.length Config.maxXfer] (encOut payload.length ++ payload) 0

/-- Format `T`, clock out and in (R79): owes as many bytes as it sends (R76). -/
def execMpsseOutIn (payload : Bytes) (s : State) : Out :=
  s.emitItem [countCheck payload.length Config.maxXfer] (encOutIn payload.length ++ payload) payload.length

/-- Format `W` (R80). -/
def execMpsseWait (countField : BitVec 16) (s : State) : Out := s.emitItem [] (encWaitField countField) 0

/-- SPI 0x9F (R86, R120). -/
def execSpiIdentify (d1 d2 d3 : Byte) (s : State) : Out := s.emitCommand [] (s.identifyBytes d1 d2 d3) 4

/-- SPI 0xAB (R86, R121). -/
def execSpiPowerUp (s : State) : Out := s.emitCommand [] (s.opcodeBytes Config.spiPowerUp) 0

/-- SPI 0xB9 (R86, R122). It is no request, so the fault gate stops it like any other emission. -/
def execSpiPowerDown (s : State) : Out := s.emitCommand [] (s.opcodeBytes Config.spiPowerDown) 0

/-- SPI 0x06 (R86, R123). -/
def execSpiWriteEnable (s : State) : Out := s.emitCommand [] (s.opcodeBytes Config.spiWriteEnable) 0

/-- SPI 0xC7 (R86, R124). -/
def execSpiBulkErase (s : State) : Out := s.emitCommand [] (s.opcodeBytes Config.spiBulkErase) 0

/-- SPI 0xD8 (R86, R125). -/
def execSpiSectorErase64k (addr : BitVec 24) (s : State) : Out := s.emitCommand [] (s.sectorEraseBytes addr) 0

/-- SPI 0x02 (R86, R127): 1 to 256 bytes that cross no page (R61). -/
def execSpiPageProgram (addr : BitVec 24) (data : Bytes) (s : State) : Out :=
  s.emitCommand [countCheck data.length Config.page, (crossesPage addr data.length, .pageCross)]
    (s.txnOut (cmdAddr Config.spiPageProgram addr data)) 0

/-- SPI 0x03 (R86, R128). -/
def execSpiRead (addr : BitVec 24) (n : BitVec 17) (s : State) : Out :=
  s.emitCommand [countCheck n.toNat Config.maxRead, (pastTop addr n.toNat, .addrRange)]
    (s.readBytes addr n.toNat) (4 + n.toNat)

/-- SPI 0x05 (R86, R142). -/
def execSpiReadStatus (d : Byte) (s : State) : Out :=
  s.emitCommand [] (s.txnOutIn (cmdDummy Config.spiReadStatus [d])) 2

end Sys2Proof.Machine
end

