-- ==== Sys2Proof/Machine/Dispatch.lean ====
section
/-! DEFINITION. One arm per instruction, each a direct call of its meaning. -/

namespace Sys2Proof.Machine

def exec (i : Instr) (s : State) : Host.Outcome State Fault Refusal :=
  match i with
  | .cfgPins dir sel desel => Sys2Proof.Machine.execCfgPins dir sel desel s
  | .cfgClock hz => Sys2Proof.Machine.execCfgClock hz s
  | .csSelect => Sys2Proof.Machine.execCsSelect s
  | .csDeselect => Sys2Proof.Machine.execCsDeselect s
  | .dataOut n => Sys2Proof.Machine.execDataOut n s
  | .dataOutIn n => Sys2Proof.Machine.execDataOutIn n s
  | .waitMask c => Sys2Proof.Machine.execWaitMask c s
  | .bytes pay => Sys2Proof.Machine.execBytes pay s
  | .flush => Sys2Proof.Machine.execFlush s
  | .identify => Sys2Proof.Machine.execIdentify s
  | .powerUp => Sys2Proof.Machine.execPowerUp s
  | .powerDown => Sys2Proof.Machine.execPowerDown s
  | .writeEnable => Sys2Proof.Machine.execWriteEnable s
  | .bulkErase => Sys2Proof.Machine.execBulkErase s
  | .sectorErase addr => Sys2Proof.Machine.execSectorErase addr s
  | .programPage addr pay => Sys2Proof.Machine.execProgramPage addr pay s
  | .programPagePace addr pay budgetUs => Sys2Proof.Machine.execProgramPagePace addr pay budgetUs s
  | .read addr n => Sys2Proof.Machine.execRead addr n s
  | .waitReady pollMs budgetMs => Sys2Proof.Machine.execWaitReady pollMs budgetMs s
  | .reserved12 _ _ _ => Sys2Proof.Machine.execReserved12 s
  | .reserved14 _ _ _ => Sys2Proof.Machine.execReserved14 s
  | .reserved18 _ _ _ => Sys2Proof.Machine.execReserved18 s
  | .mpsseSetLow value dir => Sys2Proof.Machine.execMpsseSetLow value dir s
  | .mpsseOut payload => Sys2Proof.Machine.execMpsseOut payload s
  | .mpsseOutIn payload => Sys2Proof.Machine.execMpsseOutIn payload s
  | .mpsseWait countField => Sys2Proof.Machine.execMpsseWait countField s
  | .spiIdentify d1 d2 d3 => Sys2Proof.Machine.execSpiIdentify d1 d2 d3 s
  | .spiPowerUp => Sys2Proof.Machine.execSpiPowerUp s
  | .spiPowerDown => Sys2Proof.Machine.execSpiPowerDown s
  | .spiWriteEnable => Sys2Proof.Machine.execSpiWriteEnable s
  | .spiBulkErase => Sys2Proof.Machine.execSpiBulkErase s
  | .spiSectorErase64k addr => Sys2Proof.Machine.execSpiSectorErase64k addr s
  | .spiPageProgram addr data => Sys2Proof.Machine.execSpiPageProgram addr data s
  | .spiRead addr n => Sys2Proof.Machine.execSpiRead addr n s
  | .spiReadStatus d => Sys2Proof.Machine.execSpiReadStatus d s

end Sys2Proof.Machine
end

