-- ==== Sys2Proof/Machine/Step.lean ====
section
/-! DEFINITION. One step (D2: one request, or one reply of the environment): the reset input first (R190), then the reply
the block waits for (R53, R141), then, when it is idle, the oldest request at its port (R74). With nothing to react to, the
state stays as it is (R176; log 29). -/

namespace Sys2Proof.Machine

/-- The machine's step. -/
def step (s : State) : Host.Outcome State Fault Refusal :=
  if s.resetPin then .next s.applyReset
  else
    match s.spuState with
    | .pollTx => .next s.onPollWrite
    | .pollRx => .next s.onPollRead
    | .sleep => .next s.onSleep
    | .idle =>
      match s.flush with
      | .writing => .next s.onFlushWrite
      | .reading => .next s.onFlushRead
      | .idle =>
        match s.offers with
        | [] => .next s
        | o :: rest =>
          match decode o with
          | .ok i => exec i (s.accept o rest)
          | .error _ => (s.accept o rest).illegalRequest

/-- The machine with the instruction of a table word offered at its port, so that the next step runs it (log 5, 6). -/
def State.withFetchWord (s : State) (nbits w : Nat) : State := s.withOffer (tableOffer nbits w)

end Sys2Proof.Machine
end

