-- ==== Sys2Proof/Safety.lean ====
section
/-! DEFINITION. The words claims are stated in: the invariant of the block's state, well-framed streams (R84, R198), the
duties of a host (R199 to R201), and the counts of R148. -/

namespace Sys2Proof.Machine

/-- What every state of a run satisfies, as the rules of 10_state.md give it. -/
structure Inv (s : State) : Prop where
  /-- R25, R52. -/
  cbuf_le : s.cbuf.length ≤ Config.cbufCap
  /-- R27. -/
  owed_le : s.respOwed ≤ Config.cbufCap
  /-- R27: `resp_owed > 0` implies `|cbuf| > 0`. -/
  owed_buffered : 0 < s.respOwed → s.cbuf ≠ []
  /-- R28. -/
  rbuf_le : s.rbuf.length ≤ Config.cbufCap
  /-- R23: the pins hold a legal configuration once valid. -/
  pins_legal : s.pinsValid = true → pinsLegal s.dirMask s.valSelect s.valDeselect = true
  /-- One request at a time (R21, R65 (d)). -/
  one_request : s.spuState ≠ .idle → s.flush = .idle
  /-- R142: a poll is in the buffer, and its two response bytes follow the `base` owed before. -/
  poll_sent : s.spuState = .pollTx ∨ s.spuState = .pollRx → s.cbuf ≠ [] ∧ s.respOwed = s.base + 2
  /-- R144: nothing is buffered or owed in `SLEEP`. -/
  sleep_empty : s.spuState = .sleep → s.cbuf = [] ∧ s.respOwed = 0
  /-- R140: the interval of a running wait is not zero. -/
  wait_interval : s.spuState ≠ .idle → s.pollMs ≠ 0
  /-- R146, R32: a running wait is within its budget, in whole intervals (R148). -/
  wait_elapsed : s.spuState ≠ .idle → s.elapsedMs.toNat ≤ s.budgetMs.toNat ∧ s.pollMs.toNat ∣ s.elapsedMs.toNat
  /-- R166, R171: a wait runs only with the pins configured and no fault latched. -/
  wait_allowed : s.spuState ≠ .idle → s.pinsValid = true ∧ s.fault.kind = none
  /-- R53: a running flush has something to send. -/
  flush_sends : s.flush ≠ .idle → s.cbuf ≠ []
  /-- R53: a read is made only when something is owed. -/
  flush_reads : s.flush = .reading → 0 < s.respOwed
  /-- R34: no code, no information. -/
  fault_clear : s.fault.kind = none → s.fault = .clear
  /-- R35. -/
  cleanup_clear : s.cleanupFault.kind = none → s.cleanupFault = .clear
  /-- R35: a clean-up fault is raised only while `FAULT` holds one. -/
  cleanup_second : s.cleanupFault.kind ≠ none → s.fault.kind ≠ none
  /-- R173: a clean-up fault is `POWER_DOWN`'s, so it is a transport fault. -/
  cleanup_transport : s.cleanupFault.kind ≠ some .waitTimeout
  /-- R122, R170, R205: a faulted block buffers nothing but a clean-up `POWER_DOWN`, and owes nothing. -/
  faulted_buffer : s.fault.kind ≠ none →
    s.respOwed = 0 ∧ (s.cbuf = [] ∨ s.flush = .writing ∧ s.cbuf = s.opcodeBytes Config.spiPowerDown)

/-- A stream parses to its end with no item cut short (R84, R198). -/
def WellFramed (bs : Bytes) : Prop := (parseStream bs).isSome = true

/-- R199: each selection is closed by a deselection, transfers stand inside, pacing outside. `inside` says whether chip
select is asserted. -/
def csFramed (sel desel : Byte) (inside : Bool) : List Instr → Bool
  | [] => !inside
  | .mpsseSetLow value _ :: rest =>
    if inside then value == desel && csFramed sel desel false rest else value == sel && csFramed sel desel true rest
  | .mpsseOut _ :: rest => inside && csFramed sel desel inside rest
  | .mpsseOutIn _ :: rest => inside && csFramed sel desel inside rest
  | .mpsseWait _ :: rest => !inside && csFramed sel desel inside rest
  | _ :: _ => false

/-- An erase command of layer 1 (R200, R201). -/
def isErase : Instr → Bool
  | .bulkErase => true
  | .sectorErase _ => true
  | _ => false

/-- R200: `WRITE_ENABLE` is the request immediately before each erase. `armed` says whether the last request was one. -/
def writeEnableBeforeErase (armed : Bool) : List Instr → Bool
  | [] => true
  | i :: rest => (!isErase i || armed) && writeEnableBeforeErase (i == .writeEnable) rest

/-- A request of layer 1 that programs a page. -/
def isProgram : Instr → Bool
  | .programPage _ _ => true
  | .programPagePace _ _ _ => true
  | _ => false

/-- R201: after each erase, and after the `FLUSH` of a batch of page programs, the next request is a `WAIT_READY`.
`batch` says whether page programs are waiting for a `FLUSH`. -/
def waitsForFlash (batch : Bool) : List Instr → Bool
  | [] => true
  | i :: rest =>
    (!(isErase i || i == .flush && batch) ||
      match rest with
      | .waitReady _ _ :: _ => true
      | _ => false) && waitsForFlash (isProgram i || batch && i != .flush) rest

/-- The most polls, and the most sleeps, of a wait: `q + 1` (R148). -/
def maxPolls (pollMs budgetMs : BitVec 32) : Nat := budgetMs.toNat / pollMs.toNat + 1

end Sys2Proof.Machine
end

