-- ==== Sys2Proof/Certificates/Slice0/Obligations.lean ====
section
/-! DEFINITION. The statements for the provers. Each `Meaning` statement says what `exec` answers for EVERY state, as a chain
of the checks in the order of R75 and R168; a next state is written as the old one with the fields that change, which is
its frame. The vocabulary is written out here from the rules, apart from the machine's own definitions. -/

namespace Sys2Proof.Spec
open Sys2Proof.Machine

/-! ## Bytes (R14, R78 to R83) -/

/-- `v[7:0]` and `v[15:8]`. -/
def lowByte (v : Nat) : Byte := BitVec.ofNat 8 v
def highByte (v : Nat) : Byte := BitVec.ofNat 8 (v / 256)

/-- A three-byte item with a count: the command byte and the count less one, low byte first (R79, R80). -/
def header (command : Byte) (n : Nat) : Bytes := [command, lowByte (n - 1), highByte (n - 1)]

/-- The address, most significant byte first (R58 (b)). -/
def addrBytes (a : BitVec 24) : Bytes := [BitVec.ofNat 8 (a.toNat / 65536), BitVec.ofNat 8 (a.toNat / 256), BitVec.ofNat 8 a.toNat]

def selectItem (s : State) : Bytes := [Config.opcSetLow, s.valSelect, s.dirMask]
def deselectItem (s : State) : Bytes := [Config.opcSetLow, s.valDeselect, s.dirMask]

/-- A transaction: select, one transfer with its payload, deselect (R82). -/
def transaction (s : State) (command : Byte) (p : Bytes) : Bytes :=
  selectItem s ++ header command p.length ++ p ++ deselectItem s

def outTxn (s : State) (p : Bytes) : Bytes := transaction s Config.opcOut p
def inTxn (s : State) (p : Bytes) : Bytes := transaction s Config.opcOutIn p

/-- The status poll (R140, R86). -/
def pollTxn (s : State) : Bytes := inTxn s [0x05, Config.dummyByte]
/-- The two transactions of `PROGRAM_PAGE` (R127). -/
def programTxns (s : State) (addr : BitVec 24) (pay : Bytes) : Bytes :=
  outTxn s [0x06] ++ outTxn s ([0x02] ++ addrBytes addr ++ pay)
/-- The transaction of `READ` (R128). -/
def readTxn (s : State) (addr : BitVec 24) (n : Nat) : Bytes :=
  inTxn s ([0x03] ++ addrBytes addr ++ List.replicate n 0xFF)

/-! ## States -/

/-- R167. -/
def refusedWith (s : State) (reason : Reason) : State := { s with result := .refused reason }

/-- The capacity check of R75 step 5 fails: `len` bytes or `r` owed bytes more pass `CBUF_CAP`. -/
abbrev Overflows (s : State) (len r : Nat) : Prop :=
  Config.cbufCap < s.cbuf.length + len ∨ Config.cbufCap < s.respOwed + r

/-- A deferred operation's end (R75 steps 6 and 8). -/
def appended (s : State) (e : Bytes) (r : Nat) : State :=
  { s with cbuf := s.cbuf ++ e, respOwed := s.respOwed + r, result := .ok [] }

/-- An immediate operation with `TxWrite` of the whole buffer called (R75 steps 6 and 7, R53). -/
def writing (s : State) (e : Bytes) (r : Nat) (x : Extract) : State :=
  { s with
    cbuf := s.cbuf ++ e, respOwed := s.respOwed + r, base := s.respOwed, tx := s.tx ++ [s.cbuf ++ e],
    flush := .writing, extract := x }

/-- R142, `IssuePoll()`: up to the call of `TxWrite`. -/
def polling (s : State) : State :=
  { s with
    cbuf := s.cbuf ++ pollTxn s, respOwed := s.respOwed + 2, base := s.respOwed,
    tx := s.tx ++ [s.cbuf ++ pollTxn s], spuState := .pollTx }

/-- R170, fault entry. -/
def faultedWith (s : State) (kind : FaultKind) (info0 info1 : BitVec 33) : State :=
  { s with
    fault := if s.fault.kind = none then ⟨some kind, info0, info1⟩ else s.fault
    cleanupFault :=
      if s.fault.kind ≠ none ∧ s.cleanupFault.kind = none then ⟨some kind, info0, info1⟩ else s.cleanupFault
    cbuf := [], respOwed := 0, spuState := .idle, flush := .idle, result := .fault kind }

/-- The fields R41 gives a reset value, at that value. -/
def HasResetValues (s : State) : Prop :=
  s.pinsValid = false ∧ s.sckHz = 0 ∧ s.cbuf = [] ∧ s.cbufLen = 0 ∧ s.respOwed = 0 ∧ s.rbuf = [] ∧ s.result = .ok [] ∧
  s.spuState = .idle ∧ s.elapsedMs = 0 ∧ s.statusValid = false ∧
  s.fault = ⟨none, 0, 0⟩ ∧ s.cleanupFault = ⟨none, 0, 0⟩

/-- The block is waiting for a request and not in reset: what a request finds when it is accepted (R74). -/
def Ready (s : State) : Prop := s.resetPin = false ∧ s.spuState = .idle ∧ s.flush = .idle

/-- Waiting for the reply to `TxWrite`, in a poll or in a flush. -/
def AwaitsWrite (s : State) : Prop :=
  s.resetPin = false ∧ (s.spuState = .pollTx ∨ s.spuState = .idle ∧ s.flush = .writing)
/-- Waiting for the reply to `TxRead(resp_owed)`, in a poll or in a flush. -/
def AwaitsRead (s : State) : Prop :=
  s.resetPin = false ∧ (s.spuState = .pollRx ∨ s.spuState = .idle ∧ s.flush = .reading)

/-! ## Kinds of instructions -/

/-- The deferred and the configuration operations of R72, and the stream-level rows, which are emitted by the deferred
steps (log 8). -/
def isDeferred : Instr → Bool
  | .cfgPins _ _ _ | .cfgClock _ | .csSelect | .csDeselect | .dataOut _ | .dataOutIn _ | .waitMask _ | .bytes _
  | .programPage _ _ | .programPagePace _ _ _ => true
  | .mpsseSetLow _ _ | .mpsseOut _ | .mpsseOutIn _ | .mpsseWait _ => true
  | .spiIdentify _ _ _ | .spiPowerUp | .spiPowerDown | .spiWriteEnable | .spiBulkErase | .spiSectorErase64k _
  | .spiPageProgram _ _ | .spiRead _ _ | .spiReadStatus _ => true
  | _ => false

/-- The primitives that can leave a stream cut short (R198): a header without its payload, bytes of the host's own. -/
def isRaw : Instr → Bool
  | .dataOut _ | .dataOutIn _ | .bytes _ => true
  | _ => false

/-- The reserved selectors. -/
def isReservedInstr : Instr → Bool
  | .reserved12 _ _ _ | .reserved14 _ _ _ | .reserved18 _ _ _ => true
  | _ => false

/-- R73, clause by clause. -/
def IllegalByRule (w : BitVec 128) (pay : Bytes) : Prop :=
  let op := (w.extractLsb' 0 5).toNat
  let n := w.extractLsb' 32 17
  let a := w.extractLsb' 64 32
  0x12 ≤ op ∨
  (w.extractLsb' 6 2 ≠ 0 ∨ w.extractLsb' 49 15 ≠ 0) ∨
  (w.extractLsb' 8 24 ≠ 0 ∧ op ∉ [0x0E, 0x0F, 0x10]) ∨
  (n ≠ 0 ∧ op ∉ [0x04, 0x05, 0x06, 0x07, 0x0F, 0x10]) ∨
  (a ≠ 0 ∧ op ∉ [0x00, 0x01, 0x0F, 0x11]) ∨
  (w.extractLsb' 96 32 ≠ 0 ∧ op ≠ 0x11) ∨
  (w.getLsbD 5 = true ∧ op ≠ 0x0F) ∨
  (a ≠ 0 ∧ op = 0x0F ∧ w.getLsbD 5 = false) ∨
  (a.extractLsb' 24 8 ≠ 0 ∧ op = 0x00) ∨
  (pay.length ≠ n.toNat ∧ op ∈ [0x07, 0x0F]) ∨
  (pay ≠ [] ∧ op ∉ [0x07, 0x0F])

/-- The request rows of spec/opcode_table.json: mask, match, whether a payload of length `n` comes with the word. -/
def requestRows : List (BitVec 128 × BitVec 128 × Bool) :=
  [ (0xFFFFFFFFFF000000FFFFFFFFFFFFFFFF, 0x00, false),
    (0xFFFFFFFF00000000FFFFFFFFFFFFFFFF, 0x01, false),
    (0xFFFFFFFFFFFFFFFFFFFFFFFFFFFFFFFF, 0x02, false),
    (0xFFFFFFFFFFFFFFFFFFFFFFFFFFFFFFFF, 0x03, false),
    (0xFFFFFFFFFFFFFFFFFFFE0000FFFFFFFF, 0x04, false),
    (0xFFFFFFFFFFFFFFFFFFFE0000FFFFFFFF, 0x05, false),
    (0xFFFFFFFFFFFFFFFFFFFE0000FFFFFFFF, 0x06, false),
    (0xFFFFFFFFFFFFFFFFFFFE0000FFFFFFFF, 0x07, true),
    (0xFFFFFFFFFFFFFFFFFFFFFFFFFFFFFFFF, 0x08, false),
    (0xFFFFFFFFFFFFFFFFFFFFFFFFFFFFFFFF, 0x09, false),
    (0xFFFFFFFFFFFFFFFFFFFFFFFFFFFFFFFF, 0x0A, false),
    (0xFFFFFFFFFFFFFFFFFFFFFFFFFFFFFFFF, 0x0B, false),
    (0xFFFFFFFFFFFFFFFFFFFFFFFFFFFFFFFF, 0x0C, false),
    (0xFFFFFFFFFFFFFFFFFFFFFFFFFFFFFFFF, 0x0D, false),
    (0xFFFFFFFFFFFFFFFFFFFFFFFF000000FF, 0x0E, false),
    (0xFFFFFFFFFFFFFFFFFFFE0000000000FF, 0x0F, true),
    (0xFFFFFFFF00000000FFFE0000000000FF, 0x2F, true),
    (0xFFFFFFFFFFFFFFFFFFFE0000000000FF, 0x10, false),
    (0x0000000000000000FFFFFFFFFFFFFFFF, 0x11, false) ]

/-- A request is of a row of the table. -/
def OfRow (w : BitVec 128) (pay : Bytes) (row : BitVec 128 × BitVec 128 × Bool) : Prop :=
  w &&& row.1 = row.2.1 ∧ if row.2.2 then pay.length = (w.extractLsb' 32 17).toNat else pay = []

/-- The numbers R30 gives the states of the status-poll unit. -/
def spuNumber : SpuState → BitVec 2
  | .idle => 0
  | .pollTx => 1
  | .pollRx => 2
  | .sleep => 3

/-- The fault codes of R160. -/
def faultNumber : Option FaultKind → BitVec 3
  | none => 0
  | some .transportShortWrite => 1
  | some .transportDisconnected => 2
  | some .transportDriverError => 3
  | some .waitTimeout => 4

/-- The refusal codes of R165. -/
def reasonNumbers : List (Reason × Nat) :=
  [ (.illegalRequest, 1), (.faulted, 2), (.notConfigured, 3), (.badConfig, 4), (.badLength, 5), (.pageCross, 6),
    (.addrRange, 7), (.cbufOverflow, 8), (.zeroPoll, 9) ]

/-- One poll's two response bytes, as the read side delivers them: the echo and the status byte. -/
def pollBytesIn (p : Byte × Byte) : List RxEvent := [.byte p.1, .byte p.2]

end Sys2Proof.Spec

open Sys2Proof Sys2Proof.Machine Sys2Proof.Spec

/-! ## Encodings -/

/-- Decoding an encoded well-formed instruction gives it back, in all three layers (R70 to R73, R78 to R80, R85, R86). -/
def Obligations.DecodeOfEncode : Prop :=
  ∀ i : Instr, wellFormed i = true → decode (encode i) = .ok i

/-- What the decoder accepts is the encoding of a well-formed instruction: it reads every bit, and guesses none (R73). -/
def Obligations.AcceptedIsItsOwnEncoding : Prop :=
  ∀ (o : Offer) (i : Instr), decode o = .ok i → wellFormed i = true ∧ encode i = o

/-- A request decodes to an instruction that is not a reserved selector exactly if it is of a request row of
spec/opcode_table.json, its payload as R71 says. -/
def Obligations.DecodesExactlyTheTableRows : Prop :=
  ∀ (w : BitVec 128) (pay : Bytes),
    (∃ i, decode (.request w pay) = .ok i ∧ isReservedInstr i = false) ↔ ∃ row ∈ requestRows, OfRow w pay row

/-- Words of 95_test_vectors.md V1, V6, V10, V16, V42, V51, V62, of R73 and of R86 decode to what they stand for. -/
def Obligations.TestVectorWordsDecode : Prop :=
  decode (.request 0x000000000008000B0000000000000000 []) = .ok (.cfgPins 0x0B 0x00 0x08) ∧
  decode (.request 0x00000000005B8D800000000000000001 []) = .ok (.cfgClock 6000000) ∧
  decode (.request 0x00000000000000000000000000000002 []) = .ok .csSelect ∧
  decode (.request 0x00000000000000000001000000000004 []) = .ok (.dataOut 65536) ∧
  decode (.request 0x0000000000000320000000020001002F [0xAA, 0xBB]) = .ok (.programPagePace 0x000100 [0xAA, 0xBB] 800) ∧
  decode (.request 0x00000000000000000000000201FFFE10 []) = .ok (.read 0x01FFFE 2) ∧
  decode (.request 0x00000064000000320000000000000011 []) = .ok (.waitReady 50 100) ∧
  decode (.request 0x0000000000000000000000000000001F []) = .ok (.reserved18 7 0 []) ∧
  decode (.spi [0xD8, 0x12, 0x34, 0x56]) = .ok (.spiSectorErase64k 0x123456)

/-- R83, the lengths of the emitted encodings. -/
def Obligations.EmittedLengths : Prop :=
  ∀ (s : State) (addr : BitVec 24) (n : BitVec 17) (pay : Bytes) (budget : BitVec 32) (d1 d2 d3 op : Byte) (c : Nat),
    s.encSelect.length = 3 ∧ s.encDeselect.length = 3 ∧ (encOut c).length = 3 ∧ (encOutIn c).length = 3 ∧
    (encWait c).length = 3 ∧ (s.txnOut pay).length = pay.length + 9 ∧ (s.txnOutIn pay).length = pay.length + 9 ∧
    (s.opcodeBytes op).length = 10 ∧ (s.identifyBytes d1 d2 d3).length = 13 ∧ (s.sectorEraseBytes addr).length = 13 ∧
    s.pollBytes.length = 11 ∧ (s.programBytes addr pay).length = pay.length + 23 ∧
    (s.programPaceBytes addr pay budget).length = pay.length + 26 ∧ (s.readBytes addr n.toNat).length = n.toNat + 13

/-- R82, R86, R129: the emission of each flash command and of the status poll parses as whole transactions, each `G T G`
with exactly its SPI command as the transfer's payload, and at most one `W` at the end. -/
def Obligations.FlashEmissionsAreTransactions : Prop :=
  ∀ (s : State) (addr : BitVec 24) (n : BitVec 17) (pay : Bytes) (budget : BitVec 32) (d1 d2 d3 op : Byte),
    let sel := Instr.mpsseSetLow s.valSelect s.dirMask
    let desel := Instr.mpsseSetLow s.valDeselect s.dirMask
    parseStream (s.identifyBytes d1 d2 d3) = some [sel, .mpsseOutIn [0x9F, d1, d2, d3], desel] ∧
    parseStream (s.opcodeBytes op) = some [sel, .mpsseOut [op], desel] ∧
    parseStream (s.sectorEraseBytes addr) = some [sel, .mpsseOut ([0xD8] ++ addrBytes addr), desel] ∧
    parseStream s.pollBytes = some [sel, .mpsseOutIn [0x05, Config.dummyByte], desel] ∧
    (pay.length ≤ 256 →
      parseStream (s.programBytes addr pay) =
        some [sel, .mpsseOut [0x06], desel, sel, .mpsseOut ([0x02] ++ addrBytes addr ++ pay), desel] ∧
      parseStream (s.programPaceBytes addr pay budget) =
        some [sel, .mpsseOut [0x06], desel, sel, .mpsseOut ([0x02] ++ addrBytes addr ++ pay), desel,
          .mpsseWait (BitVec.ofNat 16 (paceCount budget s.sckHz - 1))]) ∧
    (n.toNat ≤ 65532 →
      parseStream (s.readBytes addr n.toNat) =
        some [sel, .mpsseOutIn ([0x03] ++ addrBytes addr ++ List.replicate n.toNat 0xFF), desel])

/-- R84, R129, R198: an instruction other than the raw primitives keeps the buffered stream well framed. That the
stream-level rows are among the instructions is the model's choice (log 8). -/
def Obligations.BufferStaysWellFramed : Prop :=
  ∀ (i : Instr) (s t : State), isRaw i = false → WellFramed s.cbuf → exec i s = .next t → WellFramed t.cbuf

/-! ## The port and the step -/

/-- R20, R21, R75: with the block idle, a step takes the oldest offer, latches a request's word and payload, and runs what it
decodes to. The arm of the other offers, an MPSSE item or an SPI command that is run alone, is the model's choice (log 8). -/
def Obligations.StepRunsTheDecodedInstruction : Prop :=
  ∀ (s : State) (o : Offer) (rest : List Offer) (i : Instr),
    Ready s → s.offers = o :: rest → decode o = .ok i →
      step s =
        match o with
        | .request req pay => exec i { s with offers := rest, req := req, pay := pay }
        | _ => exec i { s with offers := rest }

/-- R73: an illegal request emits nothing and changes no state but `result` (and the latch and the port, by its arrival). -/
def Obligations.IllegalRequestChangesOnlyResult : Prop :=
  ∀ (s : State) (w : BitVec 128) (pay : Bytes) (rest : List Offer),
    Ready s → s.offers = .request w pay :: rest → IllegalByRule w pay →
      step s = .next { s with offers := rest, req := w, pay := pay, result := .refused .illegalRequest }

/-- R73 with R75: a request none of R73's clauses finds is decoded to an instruction that is no reserved selector. -/
def Obligations.LegalRequestIsDecoded : Prop :=
  ∀ (w : BitVec 128) (pay : Bytes), ¬ IllegalByRule w pay →
    ∃ i, decode (.request w pay) = .ok i ∧ isReservedInstr i = false

/-- R74: while BUSY = 1 (bit 0 of the STATUS register) an offered request waits; it is not refused and not lost, and the
request latch is held. -/
def Obligations.OfferWaitsWhileBusy : Prop :=
  ∀ s : State, s.resetPin = false → s.statusWord.getLsbD 0 = true →
    ∃ t, step s = .next t ∧ t.offers = s.offers ∧ t.req = s.req ∧ t.pay = s.pay

/-- The spec names nothing that stops the block (R164, R170, R176). That a step then always answers a next state, and that
a hang is a step to the same state, are the model's choices (log 23, 29). -/
def Obligations.EveryStepAnswersNext : Prop := ∀ s : State, ∃ t, step s = .next t

/-- R176: a call without a reply holds the block: no fault and no result. That the step then answers the same state is how
the model keeps the hang, its own choice (log 29). -/
def Obligations.NoReplyHoldsTheBlock : Prop :=
  ∀ s : State,
    (AwaitsWrite s → s.txReplies = [] → step s = .next s) ∧
    (AwaitsRead s → ∀ got : Bytes, got.length < s.respOwed → s.rx = got.map .byte → step s = .next s) ∧
    (s.resetPin = false → s.spuState = .sleep → s.wakes = 0 → step s = .next s)

/-! ## Reset -/

/-- R41: the values after reset that the rule gives. -/
def Obligations.ResetGivesTheListedValues : Prop := HasResetValues State.reset

/-- R190: the reset input, in any state: the listed values, the block idle, no bytes emitted; the offers wait on (the
model's choice, log 13). The environment is not reset with the block (R192): it is any value, the next one of `afterReset`;
where none is given it goes on, and only the reply of the abandoned call is taken from it (the model's choice, log 13). -/
def Obligations.ResetInputFromAnyState : Prop :=
  ∀ s : State, s.resetPin = true →
    ∃ t, step s = .next t ∧ HasResetValues t ∧ t.call = none ∧ t.tx = s.tx ∧ t.offers = s.offers ∧ t.resetPin = false ∧
      (∀ (env : Environment) (rest : List Environment), s.afterReset = env :: rest →
        t.environment = env ∧ t.afterReset = rest) ∧
      (s.afterReset = [] →
        t.afterReset = [] ∧
        (s.call = none → t.environment = s.environment) ∧
        (∀ p : Bytes, s.call = some (.txWrite p) →
          t.environment = { s.environment with txReplies := s.txReplies.tail }) ∧
        (∀ (n : Nat) (r : RxReply) (rest : List RxEvent), s.call = some (.txRead n) → collect n s.rx = some (r, rest) →
          t.environment = { s.environment with rx := rest }) ∧
        (∀ n : Nat, s.call = some (.txRead n) → collect n s.rx = none → t.environment = s.environment) ∧
        (∀ ms : BitVec 32, s.call = some (.sleep ms) →
          t.environment = { s.environment with wakes := s.wakes - 1 }))

/-- R172: no step without reset changes a fault that `FAULT` or `CLEANUP_FAULT` holds, and reset clears both (R34, R35). -/
def Obligations.OnlyResetClearsAFault : Prop :=
  ∀ s t : State, step s = .next t →
    (s.resetPin = false → s.fault.kind ≠ none → t.fault = s.fault) ∧
    (s.resetPin = false → s.cleanupFault.kind ≠ none → t.cleanupFault = s.cleanupFault) ∧
    (s.resetPin = true → t.fault = ⟨none, 0, 0⟩ ∧ t.cleanupFault = ⟨none, 0, 0⟩)

/-- Every step keeps the invariant of 10_state.md's rules. -/
def Obligations.StepKeepsTheStateInvariant : Prop := ∀ s t : State, Inv s → step s = .next t → Inv t

/-- The state after reset has the invariant. -/
def Obligations.ResetHasTheStateInvariant : Prop := Inv State.reset

/-! ## Configuration -/

/-- R100. -/
def Obligations.CfgPinsMeaning : Prop :=
  ∀ (dir sel desel : Byte) (s : State),
    encode (.cfgPins dir sel desel) = .request (Req.word 0x00 0 0 0 (0#8 ++ desel ++ sel ++ dir) 0) [] ∧
    exec (.cfgPins dir sel desel) s = .next (
      if s.fault.kind ≠ none then refusedWith s .faulted
      else if ∃ k : Fin 8, sel ^^^ desel = 1#8 <<< k.val ∧ dir.getLsbD k.val = true then
        { s with dirMask := dir, valSelect := sel, valDeselect := desel, pinsValid := true, result := .ok [] }
      else refusedWith s .badConfig)

/-- R101. -/
def Obligations.CfgClockMeaning : Prop :=
  ∀ (hz : BitVec 32) (s : State),
    encode (.cfgClock hz) = .request (Req.word 0x01 0 0 0 hz 0) [] ∧
    exec (.cfgClock hz) s = .next (
      if s.fault.kind ≠ none then refusedWith s .faulted
      else if hz = 0 then refusedWith s .badConfig
      else { s with sckHz := hz, result := .ok [] })

/-! ## Primitives -/

/-- R102, R103. -/
def Obligations.ChipSelectMeaning : Prop :=
  ∀ s : State,
    encode .csSelect = .request (Req.word 0x02 0 0 0 0 0) [] ∧ encode .csDeselect = .request (Req.word 0x03 0 0 0 0 0) [] ∧
    exec .csSelect s = .next (
      if s.fault.kind ≠ none then refusedWith s .faulted
      else if s.pinsValid = false then refusedWith s .notConfigured
      else if Overflows s 3 0 then refusedWith s .cbufOverflow
      else appended s [Config.opcSetLow, s.valSelect, s.dirMask] 0) ∧
    exec .csDeselect s = .next (
      if s.fault.kind ≠ none then refusedWith s .faulted
      else if s.pinsValid = false then refusedWith s .notConfigured
      else if Overflows s 3 0 then refusedWith s .cbufOverflow
      else appended s [Config.opcSetLow, s.valDeselect, s.dirMask] 0)

/-- R104. -/
def Obligations.DataOutMeaning : Prop :=
  ∀ (n : BitVec 17) (s : State),
    encode (.dataOut n) = .request (Req.word 0x04 0 0 n 0 0) [] ∧
    exec (.dataOut n) s = .next (
      if s.fault.kind ≠ none then refusedWith s .faulted
      else if n.toNat = 0 ∨ 65536 < n.toNat then refusedWith s .badLength
      else if Overflows s 3 0 then refusedWith s .cbufOverflow
      else appended s (header Config.opcOut n.toNat) 0)

/-- R105. -/
def Obligations.DataOutInMeaning : Prop :=
  ∀ (n : BitVec 17) (s : State),
    encode (.dataOutIn n) = .request (Req.word 0x05 0 0 n 0 0) [] ∧
    exec (.dataOutIn n) s = .next (
      if s.fault.kind ≠ none then refusedWith s .faulted
      else if n.toNat = 0 ∨ 65536 < n.toNat then refusedWith s .badLength
      else if Overflows s 3 n.toNat then refusedWith s .cbufOverflow
      else appended s (header Config.opcOutIn n.toNat) n.toNat)

/-- R106. -/
def Obligations.WaitMaskMeaning : Prop :=
  ∀ (c : BitVec 17) (s : State),
    encode (.waitMask c) = .request (Req.word 0x06 0 0 c 0 0) [] ∧
    exec (.waitMask c) s = .next (
      if s.fault.kind ≠ none then refusedWith s .faulted
      else if c.toNat = 0 ∨ 65536 < c.toNat then refusedWith s .badLength
      else if Overflows s 3 0 then refusedWith s .cbufOverflow
      else appended s (header Config.opcWait c.toNat) 0)

/-- R107. -/
def Obligations.BytesMeaning : Prop :=
  ∀ (pay : Bytes) (s : State),
    encode (.bytes pay) = .request (Req.word 0x07 0 0 (BitVec.ofNat 17 pay.length) 0 0) pay ∧
    exec (.bytes pay) s = .next (
      if s.fault.kind ≠ none then refusedWith s .faulted
      else if pay.length = 0 ∨ 65536 < pay.length then refusedWith s .badLength
      else if Overflows s pay.length 0 then refusedWith s .cbufOverflow
      else appended s pay 0)

/-- R53, R108: what `FLUSH` does up to the reply of `TxWrite`. -/
def Obligations.FlushMeaning : Prop :=
  ∀ s : State,
    encode .flush = .request (Req.word 0x08 0 0 0 0 0) [] ∧
    exec .flush s = .next (
      if s.fault.kind ≠ none then refusedWith s .faulted
      else if s.cbuf = [] then { s with rbuf := [], result := .ok [] }
      else { s with tx := s.tx ++ [s.cbuf], flush := .writing, extract := .nothing })

/-- R53, R108: a `FLUSH` of a buffer that is not empty, to its end, when the transport answers: one `TxWrite` of the whole
buffer, one `TxRead` of exactly what is owed if anything is. -/
def Obligations.FlushCompletes : Prop :=
  ∀ (s : State) (writes : List TxReply) (r : Bytes) (reads : List RxEvent),
    Ready s → s.fault.kind = none → s.cbuf ≠ [] → s.txReplies = .ok :: writes → r.length = s.respOwed →
    s.rx = r.map .byte ++ reads →
      ∃ t u, exec .flush s = .next t ∧ step t = .next u ∧
        (s.respOwed = 0 → u = { s with
          cbuf := [], rbuf := [], result := .ok [], tx := s.tx ++ [s.cbuf], txReplies := writes, extract := .nothing }) ∧
        (0 < s.respOwed → step u = .next { s with
          cbuf := [], respOwed := 0, rbuf := r, result := .ok [], tx := s.tx ++ [s.cbuf], txReplies := writes, rx := reads,
          extract := .nothing })

/-! ## Transport replies -/

/-- R53, R143: `TxWrite` replies `Ok`. A poll or a flush that owes response bytes calls `TxRead` next; the flush of a request
that returns nothing and owes nothing is over, with `rbuf` empty. -/
def Obligations.WriteReplyOk : Prop :=
  ∀ (s : State) (writes : List TxReply), s.resetPin = false → s.txReplies = .ok :: writes →
    (s.spuState = .pollTx → step s = .next { s with txReplies := writes, spuState := .pollRx }) ∧
    (s.spuState = .idle → s.flush = .writing → 0 < s.respOwed →
      step s = .next { s with txReplies := writes, flush := .reading }) ∧
    (s.spuState = .idle → s.flush = .writing → s.respOwed = 0 → s.extract = .nothing →
      step s = .next { s with txReplies := writes, flush := .idle, cbuf := [], rbuf := [], result := .ok [] })

/-- R53, R147, R160: `TxWrite` replies an error: the fault is entered with its information and nothing is read. -/
def Obligations.WriteReplyError : Prop :=
  ∀ (s : State) (writes : List TxReply), AwaitsWrite s →
    (∀ actual, actual < s.cbuf.length → s.txReplies = .shortWrite actual :: writes →
      step s = .next (faultedWith { s with txReplies := writes } .transportShortWrite
        (BitVec.ofNat 33 actual) (BitVec.ofNat 33 s.cbuf.length))) ∧
    (s.txReplies = .disconnected :: writes →
      step s = .next (faultedWith { s with txReplies := writes } .transportDisconnected 0 0)) ∧
    (∀ code : BitVec 32, s.txReplies = .driverError code :: writes →
      step s = .next (faultedWith { s with txReplies := writes } .transportDriverError 0 (code.setWidth 33)))

/-- R55, R147, R160: `TxRead` meets an error before it has all its bytes: the fault is entered, and `rbuf` keeps its value.
That the bytes before the error are consumed with it (`rx := reads`) is the model's choice (log 12). -/
def Obligations.ReadReplyError : Prop :=
  ∀ (s : State) (got : Bytes) (reads : List RxEvent), AwaitsRead s → got.length < s.respOwed →
    (s.rx = got.map .byte ++ .disconnected :: reads →
      step s = .next (faultedWith { s with rx := reads } .transportDisconnected 1 0)) ∧
    (∀ code : BitVec 32, s.rx = got.map .byte ++ .driverError code :: reads →
      step s = .next (faultedWith { s with rx := reads } .transportDriverError 1 (code.setWidth 33)))

/-- R53, R77: `TxRead` replies the owed bytes to a flush: all of them go to `rbuf`, and the request returns nothing, the three
bytes after the echo of `IDENTIFY`, or the `n` bytes after the four of the echo of `READ`, its own response starting at
`base`. -/
def Obligations.FlushReadReply : Prop :=
  ∀ (s : State) (r : Bytes) (reads : List RxEvent),
    s.resetPin = false → s.spuState = .idle → s.flush = .reading → r.length = s.respOwed → s.rx = r.map .byte ++ reads →
      let ended (data : Bytes) : State :=
        { s with rx := reads, rbuf := r, cbuf := [], respOwed := 0, flush := .idle, result := .ok data }
      (s.extract = .nothing → step s = .next (ended [])) ∧
      (∀ (earlier : Bytes) (echo b1 b2 b3 : Byte), s.extract = .identify → earlier.length = s.base →
        r = earlier ++ [echo, b1, b2, b3] → step s = .next (ended [b1, b2, b3])) ∧
      (∀ (n : Nat) (earlier echo data : Bytes), s.extract = .read n → earlier.length = s.base → echo.length = 4 →
        data.length = n → r = earlier ++ echo ++ data → step s = .next (ended data))

/-! ## Flash commands -/

/-- R120, up to the reply of `TxWrite`. -/
def Obligations.IdentifyMeaning : Prop :=
  ∀ s : State,
    encode .identify = .request (Req.word 0x09 0 0 0 0 0) [] ∧
    exec .identify s = .next (
      if s.fault.kind ≠ none then refusedWith s .faulted
      else if s.pinsValid = false then refusedWith s .notConfigured
      else if Overflows s 13 4 then refusedWith s .cbufOverflow
      else writing s (inTxn s [0x9F, Config.dummyByte, Config.dummyByte, Config.dummyByte]) 4 .identify)

/-- R77, R120: `IDENTIFY` to its end when the transport answers: exactly the three bytes after its echo, whatever they are
and whatever was buffered before it. -/
def Obligations.IdentifyReturnsThreeBytes : Prop :=
  ∀ (s : State) (writes : List TxReply) (earlier : Bytes) (echo b1 b2 b3 : Byte) (reads : List RxEvent),
    Ready s → s.fault.kind = none → s.pinsValid = true → ¬ Overflows s 13 4 →
    s.txReplies = .ok :: writes → earlier.length = s.respOwed →
    s.rx = (earlier ++ [echo, b1, b2, b3]).map .byte ++ reads →
      ∃ t u, exec .identify s = .next t ∧ step t = .next u ∧
        step u = .next { s with
          cbuf := [], respOwed := 0, rbuf := earlier ++ [echo, b1, b2, b3], result := .ok [b1, b2, b3],
          tx := s.tx ++ [s.cbuf ++ inTxn s [0x9F, Config.dummyByte, Config.dummyByte, Config.dummyByte]],
          txReplies := writes, rx := reads, base := s.respOwed, extract := .identify }

/-- R121, R123, R124: the single-opcode commands, up to the reply of `TxWrite`. -/
def Obligations.SingleOpcodeMeaning : Prop :=
  ∀ (i : Instr) (selector : BitVec 5) (opcode : Byte) (s : State),
    (i, selector, opcode) ∈
      ([(.powerUp, 0x0A, 0xAB), (.writeEnable, 0x0C, 0x06), (.bulkErase, 0x0D, 0xC7)] : List (Instr × BitVec 5 × Byte)) →
    encode i = .request (Req.word selector 0 0 0 0 0) [] ∧
    exec i s = .next (
      if s.fault.kind ≠ none then refusedWith s .faulted
      else if s.pinsValid = false then refusedWith s .notConfigured
      else if Overflows s 10 0 then refusedWith s .cbufOverflow
      else writing s (outTxn s [opcode]) 0 .nothing)

/-- R122, R171: `POWER_DOWN`, which the fault gate lets through, up to the reply of `TxWrite`. -/
def Obligations.PowerDownMeaning : Prop :=
  ∀ s : State,
    encode .powerDown = .request (Req.word 0x0B 0 0 0 0 0) [] ∧
    exec .powerDown s = .next (
      if s.pinsValid = false then refusedWith s .notConfigured
      else if Overflows s 10 0 then refusedWith s .cbufOverflow
      else writing s (outTxn s [0xB9]) 0 .nothing)

/-- R125, up to the reply of `TxWrite`: the address is sent as given. -/
def Obligations.SectorEraseMeaning : Prop :=
  ∀ (addr : BitVec 24) (s : State),
    encode (.sectorErase addr) = .request (Req.word 0x0E 0 addr 0 0 0) [] ∧
    exec (.sectorErase addr) s = .next (
      if s.fault.kind ≠ none then refusedWith s .faulted
      else if s.pinsValid = false then refusedWith s .notConfigured
      else if Overflows s 13 0 then refusedWith s .cbufOverflow
      else writing s (outTxn s ([0xD8] ++ addrBytes addr)) 0 .nothing)

/-- R121 to R125 with R53: the commands that return nothing, to their end when the transport answers: with nothing owed
when `TxWrite` replies `Ok`, behind deferred transfers when their owed bytes have come too, which go to `rbuf`. A
`POWER_DOWN` also while faulted, with both fault registers as they were. -/
def Obligations.FireAndForgetCompletes : Prop :=
  ∀ (i : Instr) (payload : Bytes) (addr : BitVec 24) (s : State) (writes : List TxReply) (r : Bytes) (reads : List RxEvent),
    (i, payload) ∈
      ([(.powerUp, [0xAB]), (.powerDown, [0xB9]), (.writeEnable, [0x06]), (.bulkErase, [0xC7]),
        (.sectorErase addr, [0xD8] ++ addrBytes addr)] : List (Instr × Bytes)) →
    Ready s → (s.fault.kind = none ∨ i = .powerDown) → s.pinsValid = true → ¬ Overflows s (payload.length + 9) 0 →
    s.txReplies = .ok :: writes → r.length = s.respOwed → s.rx = r.map .byte ++ reads →
      ∃ t u, exec i s = .next t ∧ step t = .next u ∧
        (s.respOwed = 0 → u = { s with
          cbuf := [], rbuf := [], result := .ok [], tx := s.tx ++ [s.cbuf ++ outTxn s payload],
          txReplies := writes, base := 0, extract := .nothing }) ∧
        (0 < s.respOwed → step u = .next { s with
          cbuf := [], respOwed := 0, rbuf := r, result := .ok [], tx := s.tx ++ [s.cbuf ++ outTxn s payload],
          txReplies := writes, rx := reads, base := s.respOwed, extract := .nothing })

/-- R127 with `pace = 0`. -/
def Obligations.ProgramPageMeaning : Prop :=
  ∀ (addr : BitVec 24) (pay : Bytes) (s : State),
    encode (.programPage addr pay) = .request (Req.word 0x0F 0 addr (BitVec.ofNat 17 pay.length) 0 0) pay ∧
    exec (.programPage addr pay) s = .next (
      if s.fault.kind ≠ none then refusedWith s .faulted
      else if s.pinsValid = false then refusedWith s .notConfigured
      else if pay.length = 0 ∨ 256 < pay.length then refusedWith s .badLength
      else if 256 < addr.toNat % 256 + pay.length then refusedWith s .pageCross
      else if Overflows s (pay.length + 23) 0 then refusedWith s .cbufOverflow
      else appended s (programTxns s addr pay) 0)

/-- R126, R127 with `pace = 1`. -/
def Obligations.ProgramPagePaceMeaning : Prop :=
  ∀ (addr : BitVec 24) (pay : Bytes) (budgetUs : BitVec 32) (s : State),
    encode (.programPagePace addr pay budgetUs) =
      .request (Req.word 0x0F 1 addr (BitVec.ofNat 17 pay.length) budgetUs 0) pay ∧
    exec (.programPagePace addr pay budgetUs) s = .next (
      if s.fault.kind ≠ none then refusedWith s .faulted
      else if s.pinsValid = false then refusedWith s .notConfigured
      else if pay.length = 0 ∨ 256 < pay.length then refusedWith s .badLength
      else if 256 < addr.toNat % 256 + pay.length then refusedWith s .pageCross
      else if s.sckHz = 0 then refusedWith s .notConfigured
      else if Overflows s (pay.length + 26) 0 then refusedWith s .cbufOverflow
      else appended s (programTxns s addr pay ++
        header Config.opcWait (min 65536 (max 1 (budgetUs.toNat * s.sckHz.toNat / 8000000)))) 0)

/-- R126: the pacing count, the range it stays in, and the product's. -/
def Obligations.PaceCountIsClampedQuotient : Prop :=
  ∀ budgetUs sckHz : BitVec 32,
    let q := budgetUs.toNat * sckHz.toNat / 8000000
    budgetUs.toNat * sckHz.toNat < 2 ^ 64 ∧ 1 ≤ paceCount budgetUs sckHz ∧ paceCount budgetUs sckHz ≤ 65536 ∧
    (q < 1 → paceCount budgetUs sckHz = 1) ∧ (65536 < q → paceCount budgetUs sckHz = 65536) ∧
    (1 ≤ q → q ≤ 65536 → paceCount budgetUs sckHz = q)

/-- R128, up to the reply of `TxWrite`. -/
def Obligations.ReadMeaning : Prop :=
  ∀ (addr : BitVec 24) (n : BitVec 17) (s : State),
    encode (.read addr n) = .request (Req.word 0x10 0 addr n 0 0) [] ∧
    exec (.read addr n) s = .next (
      if s.fault.kind ≠ none then refusedWith s .faulted
      else if s.pinsValid = false then refusedWith s .notConfigured
      else if n.toNat = 0 ∨ 65532 < n.toNat then refusedWith s .badLength
      else if 2 ^ 24 < addr.toNat + n.toNat then refusedWith s .addrRange
      else if Overflows s (n.toNat + 13) (4 + n.toNat) then refusedWith s .cbufOverflow
      else writing s (readTxn s addr n.toNat) (4 + n.toNat) (.read n.toNat))

/-- R77, R128: `READ` to its end when the transport answers: the `n` bytes after the four of its echo. -/
def Obligations.ReadReturnsTheData : Prop :=
  ∀ (s : State) (addr : BitVec 24) (n : BitVec 17) (writes : List TxReply) (earlier echo data : Bytes)
    (reads : List RxEvent),
    Ready s → s.fault.kind = none → s.pinsValid = true → 1 ≤ n.toNat → n.toNat ≤ 65532 → addr.toNat + n.toNat ≤ 2 ^ 24 →
    ¬ Overflows s (n.toNat + 13) (4 + n.toNat) → s.txReplies = .ok :: writes →
    earlier.length = s.respOwed → echo.length = 4 → data.length = n.toNat →
    s.rx = (earlier ++ echo ++ data).map .byte ++ reads →
      ∃ t u, exec (.read addr n) s = .next t ∧ step t = .next u ∧
        step u = .next { s with
          cbuf := [], respOwed := 0, rbuf := earlier ++ echo ++ data, result := .ok data,
          tx := s.tx ++ [s.cbuf ++ readTxn s addr n.toNat], txReplies := writes, rx := reads, base := s.respOwed,
          extract := .read n.toNat }

/-! ## The status poll -/

/-- R140, R142: `WAIT_READY` is accepted and its first poll is sent. -/
def Obligations.WaitReadyMeaning : Prop :=
  ∀ (pollMs budgetMs : BitVec 32) (s : State),
    encode (.waitReady pollMs budgetMs) = .request (Req.word 0x11 0 0 0 pollMs budgetMs) [] ∧
    exec (.waitReady pollMs budgetMs) s = .next (
      if s.fault.kind ≠ none then refusedWith s .faulted
      else if s.pinsValid = false then refusedWith s .notConfigured
      else if pollMs = 0 then refusedWith s .zeroPoll
      else if Overflows s 11 2 then refusedWith s .cbufOverflow
      else polling { s with pollMs := pollMs, budgetMs := budgetMs, elapsedMs := 0 })

/-- R144, R145: the reply to a poll's `TxRead`: the status byte is the one after the poll's echo, and its bit 0 alone says
whether the wait is over or sleeps. -/
def Obligations.PollReadReply : Prop :=
  ∀ (s : State) (earlier : Bytes) (echo status : Byte) (reads : List RxEvent),
    s.resetPin = false → s.spuState = .pollRx → s.respOwed = s.base + 2 → earlier.length = s.base →
    s.rx = (earlier ++ [echo, status]).map .byte ++ reads →
      (status.getLsbD 0 = false → step s = .next { s with
        rx := reads, rbuf := earlier ++ [echo, status], cbuf := [], respOwed := 0, statusByte := status,
        statusValid := true, spuState := .idle, result := .ok [] }) ∧
      (status.getLsbD 0 = true → step s = .next { s with
        rx := reads, rbuf := earlier ++ [echo, status], cbuf := [], respOwed := 0, statusByte := status,
        statusValid := true, spuState := .sleep })

/-- R146, R162: `Wake`: the interval is added, without a wrap inside a wait; past the budget the wait faults, else the
next poll is sent. -/
def Obligations.WakeReply : Prop :=
  ∀ (s : State) (wakes : Nat),
    s.resetPin = false → s.spuState = .sleep → s.wakes = wakes + 1 → s.elapsedMs.toNat ≤ s.budgetMs.toNat →
      ∃ elapsed : BitVec 33, elapsed.toNat = s.elapsedMs.toNat + s.pollMs.toNat ∧
        step s = .next (
          if s.budgetMs.toNat < elapsed.toNat then
            faultedWith { s with wakes := wakes, elapsedMs := elapsed } .waitTimeout elapsed (s.budgetMs.setWidth 33)
          else polling { s with wakes := wakes, elapsedMs := elapsed })

/-- R144, R145: a step that ends a wait ends it with `OK` only in `POLL_RX`, on a status byte with bit 0 clear that was just
stored: `rbuf` holds the bytes this step took from the read side, and the status byte is the one after the poll's echo
among them. It ends otherwise with a fault. -/
def Obligations.WaitNeverOkWhileBusy : Prop :=
  ∀ s t : State, s.resetPin = false → s.spuState ≠ .idle → step s = .next t → t.spuState = .idle →
    (t.result = .ok [] ∧ s.spuState = .pollRx ∧ t.statusValid = true ∧ t.statusByte.getLsbD 0 = false ∧
      t.fault = s.fault ∧ s.rx = t.rbuf.map .byte ++ t.rx ∧ t.rbuf.length = s.respOwed ∧
      (Inv s → t.rbuf[s.base + 1]? = some t.statusByte)) ∨
    (∃ kind, t.result = .fault kind ∧ t.fault.kind ≠ none)

/-- R142, R148: with a busy answer to each of the `q + 1` polls, `q = floor(budget_ms / poll_ms)`, the wait makes exactly
these polls and as many sleeps and then faults with `elapsed_ms = (q + 1) * poll_ms`. What was deferred before the wait
goes ahead of the first poll in the same transfer, and its response bytes ahead of that poll's. -/
def Obligations.WaitTimesOutAfterAllPolls : Prop :=
  ∀ (s : State) (pollMs budgetMs : BitVec 32) (polls : List (Byte × Byte)) (earlier : Bytes) (writes : List TxReply)
    (reads : List RxEvent) (wakes : Nat),
    Ready s → s.fault.kind = none → s.pinsValid = true → pollMs ≠ 0 → ¬ Overflows s 11 2 → earlier.length = s.respOwed →
    polls.length = maxPolls pollMs budgetMs → (∀ p ∈ polls, p.2.getLsbD 0 = true) →
    s.txReplies = List.replicate polls.length .ok ++ writes →
    s.rx = earlier.map .byte ++ polls.flatMap pollBytesIn ++ reads → s.wakes = polls.length + wakes →
      ∃ t u, exec (.waitReady pollMs budgetMs) s = .next t ∧
        Host.Core.run core (3 * polls.length) t = .next u ∧
        u.spuState = .idle ∧ u.result = .fault .waitTimeout ∧
        u.elapsedMs.toNat = polls.length * pollMs.toNat ∧
        u.fault = ⟨some .waitTimeout, u.elapsedMs, budgetMs.setWidth 33⟩ ∧ u.statusValid = true ∧
        u.cbuf = [] ∧ u.respOwed = 0 ∧
        u.tx = s.tx ++ [s.cbuf ++ pollTxn s] ++ List.replicate (polls.length - 1) (pollTxn s) ∧
        u.txReplies = writes ∧ u.rx = reads ∧ u.wakes = wakes

/-- R142, R145, R148: with `k <= q` busy answers and then one with bit 0 clear, the wait makes `k + 1` polls and `k` sleeps and
returns `OK`. What was deferred before the wait goes ahead of the first poll, and its response bytes ahead of that
poll's. -/
def Obligations.WaitReturnsOkWhenReady : Prop :=
  ∀ (s : State) (pollMs budgetMs : BitVec 32) (polls : List (Byte × Byte)) (earlier : Bytes) (echo status : Byte)
    (writes : List TxReply) (reads : List RxEvent) (wakes : Nat),
    Ready s → s.fault.kind = none → s.pinsValid = true → pollMs ≠ 0 → ¬ Overflows s 11 2 → earlier.length = s.respOwed →
    polls.length < maxPolls pollMs budgetMs → (∀ p ∈ polls, p.2.getLsbD 0 = true) → status.getLsbD 0 = false →
    s.txReplies = List.replicate (polls.length + 1) .ok ++ writes →
    s.rx = earlier.map .byte ++ polls.flatMap pollBytesIn ++ pollBytesIn (echo, status) ++ reads →
    s.wakes = polls.length + wakes →
      ∃ t u, exec (.waitReady pollMs budgetMs) s = .next t ∧
        Host.Core.run core (3 * polls.length + 2) t = .next u ∧
        u.spuState = .idle ∧ u.result = .ok [] ∧ u.fault = s.fault ∧
        u.elapsedMs.toNat = polls.length * pollMs.toNat ∧ u.statusByte = status ∧ u.statusValid = true ∧
        u.rbuf = (if polls = [] then earlier ++ [echo, status] else [echo, status]) ∧ u.cbuf = [] ∧ u.respOwed = 0 ∧
        u.tx = s.tx ++ [s.cbuf ++ pollTxn s] ++ List.replicate polls.length (pollTxn s) ∧
        u.txReplies = writes ∧ u.rx = reads ∧ u.wakes = wakes

/-- R149: from any state of a running wait, if the environment has a reply for each call the wait can still make (whatever
the replies are), the wait ends within `3 * (q + 1)` replies. -/
def Obligations.WaitEndsIfAnswered : Prop :=
  ∀ s : State, Inv s → s.resetPin = false → s.spuState ≠ .idle →
    maxPolls s.pollMs s.budgetMs ≤ s.txReplies.length → maxPolls s.pollMs s.budgetMs ≤ s.wakes →
    s.respOwed + 2 * maxPolls s.pollMs s.budgetMs ≤ s.rx.length →
      ∃ (k : Nat) (u : State), k ≤ 3 * maxPolls s.pollMs s.budgetMs ∧ Host.Core.run core k s = .next u ∧ u.spuState = .idle

/-! ## Faults and refusals -/

/-- R170: fault entry. -/
def Obligations.FaultEntry : Prop :=
  ∀ (s : State) (kind : FaultKind) (info0 info1 : BitVec 33), s.raiseFault kind info0 info1 = faultedWith s kind info0 info1

/-- R168, R171: while faulted, everything but `POWER_DOWN` is refused with `Faulted`, and an illegal request still with
`IllegalRequest`; `POWER_DOWN` does the same to the rest of the state whether or not the block is faulted. That the
stream-level rows are refused too is the model's choice (log 9). -/
def Obligations.FaultGate : Prop :=
  ∀ (i : Instr) (s : State), s.fault.kind ≠ none →
    (i ≠ .powerDown → isReservedInstr i = false → exec i s = .next (refusedWith s .faulted)) ∧
    (isReservedInstr i = true → exec i s = .next (refusedWith s .illegalRequest)) ∧
    (∀ t : State, exec .powerDown { s with fault := ⟨none, 0, 0⟩ } = .next t → exec .powerDown s = .next { t with fault := s.fault })

/-- R167: a request that ends refused has changed nothing but `result`. -/
def Obligations.RefusalChangesOnlyResult : Prop :=
  ∀ (i : Instr) (s t : State) (reason : Reason), s.busy = false → exec i s = .next t → t.busy = false →
    t.result = .refused reason → t = refusedWith s reason

/-- R72, R161: the deferred and the configuration operations make no transport call, end at once and never fault. That the
stream-level rows are deferred is the model's choice (log 8). -/
def Obligations.DeferredMakesNoCall : Prop :=
  ∀ (i : Instr) (s t : State), isDeferred i = true → exec i s = .next t →
    t.tx = s.tx ∧ t.rbuf = s.rbuf ∧ t.spuState = s.spuState ∧ t.flush = s.flush ∧ t.fault = s.fault ∧
    t.cleanupFault = s.cleanupFault ∧ t.statusByte = s.statusByte ∧ t.elapsedMs = s.elapsedMs ∧
    (t.result = .ok [] ∨ ∃ reason, t.result = .refused reason)

/-! ## Registers -/

/-- R36: the STATUS register's bits, with the numbers of R30, and that bits 7:0 are 0 after reset. -/
def Obligations.StatusRegisterBits : Prop :=
  State.reset.statusWord.extractLsb' 0 8 = 0 ∧
  ∀ s : State, ∃ v : BitVec 16, s.readCR 2 = .ok (.status v) ∧
    (v.getLsbD 0 = true ↔ s.spuState ≠ .idle ∨ s.flush ≠ .idle) ∧
    (v.getLsbD 1 = true ↔ s.fault.kind ≠ none) ∧ (v.getLsbD 2 = true ↔ s.cleanupFault.kind ≠ none) ∧
    v.getLsbD 3 = s.pinsValid ∧ (v.getLsbD 4 = true ↔ s.sckHz ≠ 0) ∧ v.getLsbD 5 = s.statusValid ∧
    v.extractLsb' 6 2 = spuNumber s.spuState ∧ v.extractLsb' 8 8 = s.statusByte

/-- R23, R24, R26, R27, R32 to R35, R37: the other control registers, with the fault codes of R160; `CR9` and above are
refused. That `CR3` and `CR4` are answered as three named fields, and how a missing register is refused, are the model's
choices (log 22). -/
def Obligations.ControlRegisterReads : Prop :=
  ∀ s : State,
    (∃ v : BitVec 25, s.readCR 0 = .ok (.pincfg v) ∧ v.extractLsb' 0 8 = s.dirMask ∧ v.extractLsb' 8 8 = s.valSelect ∧
      v.extractLsb' 16 8 = s.valDeselect ∧ v.getLsbD 24 = s.pinsValid) ∧
    s.readCR 1 = .ok (.sckHz s.sckHz) ∧
    s.readCR 3 = .ok (.fault (faultNumber s.fault.kind) s.fault.info0 s.fault.info1) ∧
    s.readCR 4 = .ok (.cleanupFault (faultNumber s.cleanupFault.kind) s.cleanupFault.info0 s.cleanupFault.info1) ∧
    s.readCR 5 = .ok (.elapsed s.elapsedMs) ∧
    (Inv s → ∃ len owed : BitVec 18, s.readCR 6 = .ok (.cbufLen len) ∧ len.toNat = s.cbuf.length ∧
      s.readCR 7 = .ok (.respOwed owed) ∧ owed.toNat = s.respOwed) ∧
    (∃ v : BitVec 9, s.readCR 8 = .ok (.lastStatus v) ∧ v.extractLsb' 0 8 = s.statusByte ∧ v.getLsbD 8 = s.statusValid) ∧
    ∀ k, 9 ≤ k → s.readCR k = .error (.noSuchRegister k)

/-- R165: the refusal reasons and their codes, 1 to 9, no two alike and none beside them. -/
def Obligations.RefusalCodes : Prop :=
  (∀ pair ∈ reasonNumbers, pair.1.code = pair.2) ∧ (∀ reason : Reason, (reason, reason.code) ∈ reasonNumbers) ∧
  ∀ reason other : Reason, reason.code = other.code → reason = other

/-! ## Reserved selectors and stream-level rows -/

/-- R73: the reserved selectors are refused with `IllegalRequest` in every state. -/
def Obligations.ReservedSelectorsMeaning : Prop :=
  ∀ (sel1 : BitVec 1) (sel2 : BitVec 2) (sel3 : BitVec 3) (rest : BitVec 123) (pay : Bytes) (s : State),
    exec (.reserved12 sel1 rest pay) s = .next (refusedWith s .illegalRequest) ∧
    exec (.reserved14 sel2 rest pay) s = .next (refusedWith s .illegalRequest) ∧
    exec (.reserved18 sel3 rest pay) s = .next (refusedWith s .illegalRequest)

/-- The emission of the four MPSSE items (R76, R78 to R80). That a stream item can be offered alone, and runs by the
deferred steps of R75, is the model's choice (log 8). -/
def Obligations.MpsseItemsMeaning : Prop :=
  ∀ (value dir : Byte) (payload : Bytes) (f : BitVec 16) (s : State),
    exec (.mpsseSetLow value dir) s = .next (
      if s.fault.kind ≠ none then refusedWith s .faulted
      else if Overflows s 3 0 then refusedWith s .cbufOverflow
      else appended s [Config.opcSetLow, value, dir] 0) ∧
    exec (.mpsseOut payload) s = .next (
      if s.fault.kind ≠ none then refusedWith s .faulted
      else if payload.length = 0 ∨ 65536 < payload.length then refusedWith s .badLength
      else if Overflows s (payload.length + 3) 0 then refusedWith s .cbufOverflow
      else appended s (header Config.opcOut payload.length ++ payload) 0) ∧
    exec (.mpsseOutIn payload) s = .next (
      if s.fault.kind ≠ none then refusedWith s .faulted
      else if payload.length = 0 ∨ 65536 < payload.length then refusedWith s .badLength
      else if Overflows s (payload.length + 3) payload.length then refusedWith s .cbufOverflow
      else appended s (header Config.opcOutIn payload.length ++ payload) payload.length) ∧
    exec (.mpsseWait f) s = .next (
      if s.fault.kind ≠ none then refusedWith s .faulted
      else if Overflows s 3 0 then refusedWith s .cbufOverflow
      else appended s (header Config.opcWait (f.toNat + 1)) 0)

/-- The emission of the SPI commands that have no check of their own (R82, R85, R86): the transaction that carries the
command is appended. That a command can be offered alone is the model's choice (log 8). -/
def Obligations.SpiCommandsMeaning : Prop :=
  ∀ (i : Instr) (e : Bytes) (owed : Nat) (s : State) (d1 d2 d3 : Byte) (addr : BitVec 24),
    (i, e, owed) ∈
      ([(.spiIdentify d1 d2 d3, inTxn s [0x9F, d1, d2, d3], 4), (.spiPowerUp, outTxn s [0xAB], 0),
        (.spiPowerDown, outTxn s [0xB9], 0), (.spiWriteEnable, outTxn s [0x06], 0), (.spiBulkErase, outTxn s [0xC7], 0),
        (.spiSectorErase64k addr, outTxn s ([0xD8] ++ addrBytes addr), 0),
        (.spiReadStatus d1, inTxn s [0x05, d1], 2)] : List (Instr × Bytes × Nat)) →
    exec i s = .next (
      if s.fault.kind ≠ none then refusedWith s .faulted
      else if s.pinsValid = false then refusedWith s .notConfigured
      else if Overflows s e.length owed then refusedWith s .cbufOverflow
      else appended s e owed)

/-- The emission of the SPI page program and read commands (R61, R86, R127, R128), under the same choice (log 8, 9). -/
def Obligations.SpiDataCommandsMeaning : Prop :=
  ∀ (addr : BitVec 24) (data : Bytes) (n : BitVec 17) (s : State),
    exec (.spiPageProgram addr data) s = .next (
      if s.fault.kind ≠ none then refusedWith s .faulted
      else if s.pinsValid = false then refusedWith s .notConfigured
      else if data.length = 0 ∨ 256 < data.length then refusedWith s .badLength
      else if 256 < addr.toNat % 256 + data.length then refusedWith s .pageCross
      else if Overflows s (data.length + 13) 0 then refusedWith s .cbufOverflow
      else appended s (outTxn s ([0x02] ++ addrBytes addr ++ data)) 0) ∧
    exec (.spiRead addr n) s = .next (
      if s.fault.kind ≠ none then refusedWith s .faulted
      else if s.pinsValid = false then refusedWith s .notConfigured
      else if n.toNat = 0 ∨ 65532 < n.toNat then refusedWith s .badLength
      else if 2 ^ 24 < addr.toNat + n.toNat then refusedWith s .addrRange
      else if Overflows s (n.toNat + 13) (4 + n.toNat) then refusedWith s .cbufOverflow
      else appended s (readTxn s addr n.toNat) (4 + n.toNat))
end

