-- ==== Sys2Proof/Laws/Encoding.lean ====
section
/-! SUPPORT. The request word, bit by bit and field by field (30_encoding.md R70), and the MPSSE command bytes apart. -/

namespace Sys2Proof

/-- Where each bit of a request word comes from (R70). -/
theorem Req.getLsbD_word (op : BitVec 5) (pace : BitVec 1) (addr : BitVec 24) (n : BitVec 17) (a b : BitVec 32) (i : Nat) :
    (Req.word op pace addr n a b).getLsbD i =
      if i < 5 then op.getLsbD i else if i < 6 then pace.getLsbD (i - 5) else if i < 8 then false
      else if i < 32 then addr.getLsbD (i - 8) else if i < 49 then n.getLsbD (i - 32) else if i < 64 then false
      else if i < 96 then a.getLsbD (i - 64) else b.getLsbD (i - 96) := by
  show BitVec.getLsbD (w := 32 + 32 + 15 + 17 + 24 + 2 + 1 + 5) (b ++ a ++ 0#15 ++ n ++ addr ++ 0#2 ++ pace ++ op) i = _
  simp only [BitVec.getLsbD_append, BitVec.getLsbD_zero]
  split_ifs <;> first | rfl | omega

@[simp] theorem Req.op_word (op : BitVec 5) (pace : BitVec 1) (addr : BitVec 24) (n : BitVec 17) (a b : BitVec 32) :
    Req.op (Req.word op pace addr n a b) = op := by
  ext i hi
  simp only [Req.op, BitVec.getElem_extractLsb', Req.getLsbD_word]
  split_ifs <;> first | omega | simp [BitVec.getLsbD_eq_getElem hi]

@[simp] theorem Req.pace_word (op : BitVec 5) (pace : BitVec 1) (addr : BitVec 24) (n : BitVec 17) (a b : BitVec 32) :
    Req.pace (Req.word op pace addr n a b) = pace := by
  ext i hi
  simp only [Req.pace, BitVec.getElem_extractLsb', Req.getLsbD_word]
  split_ifs <;> first | omega | simp [BitVec.getLsbD_eq_getElem hi]

@[simp] theorem Req.rsvLow_word (op : BitVec 5) (pace : BitVec 1) (addr : BitVec 24) (n : BitVec 17) (a b : BitVec 32) :
    Req.rsvLow (Req.word op pace addr n a b) = 0 := by
  ext i hi
  simp only [Req.rsvLow, BitVec.getElem_extractLsb', Req.getLsbD_word]
  split_ifs <;> first | omega | simp

@[simp] theorem Req.addr_word (op : BitVec 5) (pace : BitVec 1) (addr : BitVec 24) (n : BitVec 17) (a b : BitVec 32) :
    Req.addr (Req.word op pace addr n a b) = addr := by
  ext i hi
  simp only [Req.addr, BitVec.getElem_extractLsb', Req.getLsbD_word]
  split_ifs <;> first | omega | simp [BitVec.getLsbD_eq_getElem hi]

@[simp] theorem Req.n_word (op : BitVec 5) (pace : BitVec 1) (addr : BitVec 24) (n : BitVec 17) (a b : BitVec 32) :
    Req.n (Req.word op pace addr n a b) = n := by
  ext i hi
  simp only [Req.n, BitVec.getElem_extractLsb', Req.getLsbD_word]
  split_ifs <;> first | omega | simp [BitVec.getLsbD_eq_getElem hi]

@[simp] theorem Req.rsvHigh_word (op : BitVec 5) (pace : BitVec 1) (addr : BitVec 24) (n : BitVec 17) (a b : BitVec 32) :
    Req.rsvHigh (Req.word op pace addr n a b) = 0 := by
  ext i hi
  simp only [Req.rsvHigh, BitVec.getElem_extractLsb', Req.getLsbD_word]
  split_ifs <;> first | omega | simp

@[simp] theorem Req.a_word (op : BitVec 5) (pace : BitVec 1) (addr : BitVec 24) (n : BitVec 17) (a b : BitVec 32) :
    Req.a (Req.word op pace addr n a b) = a := by
  ext i hi
  simp only [Req.a, BitVec.getElem_extractLsb', Req.getLsbD_word]
  split_ifs <;> first | omega | simp [BitVec.getLsbD_eq_getElem hi]

@[simp] theorem Req.b_word (op : BitVec 5) (pace : BitVec 1) (addr : BitVec 24) (n : BitVec 17) (a b : BitVec 32) :
    Req.b (Req.word op pace addr n a b) = b := by
  ext i hi
  simp only [Req.b, BitVec.getElem_extractLsb', Req.getLsbD_word]
  split_ifs <;> first | omega | simp [BitVec.getLsbD_eq_getElem hi]

/-- A word of field masks, laid out as R70 lays out the fields. -/
def Req.mask (op : BitVec 5) (pace : BitVec 1) (low : BitVec 2) (addr : BitVec 24) (n : BitVec 17) (high : BitVec 15)
    (a b : BitVec 32) : BitVec 128 :=
  b ++ a ++ high ++ n ++ addr ++ low ++ pace ++ op

theorem Req.getLsbD_mask (op : BitVec 5) (pace : BitVec 1) (low : BitVec 2) (addr : BitVec 24) (n : BitVec 17)
    (high : BitVec 15) (a b : BitVec 32) (i : Nat) :
    (Req.mask op pace low addr n high a b).getLsbD i =
      if i < 5 then op.getLsbD i else if i < 6 then pace.getLsbD (i - 5) else if i < 8 then low.getLsbD (i - 6)
      else if i < 32 then addr.getLsbD (i - 8) else if i < 49 then n.getLsbD (i - 32)
      else if i < 64 then high.getLsbD (i - 49) else if i < 96 then a.getLsbD (i - 64) else b.getLsbD (i - 96) := by
  show BitVec.getLsbD (w := 32 + 32 + 15 + 17 + 24 + 2 + 1 + 5) (b ++ a ++ high ++ n ++ addr ++ low ++ pace ++ op) i = _
  simp only [BitVec.getLsbD_append]
  split_ifs <;> first | rfl | omega

/-- The operand of `CFG_PINS` has nothing in `a[31:24]` (R100). -/
theorem Req.pins_and_top (dir sel desel : Byte) : (0#8 ++ desel ++ sel ++ dir : BitVec 32) &&& 0xFF000000#32 = 0#32 := by
  apply BitVec.eq_of_getLsbD_eq
  intro i hi
  have h : (0#8 ++ desel ++ sel ++ dir : BitVec 32).getLsbD i = if i < 8 then dir.getLsbD i
      else if i < 16 then sel.getLsbD (i - 8) else if i < 24 then desel.getLsbD (i - 16) else false := by
    show BitVec.getLsbD (w := 8 + 8 + 8 + 8) (0#8 ++ desel ++ sel ++ dir) i = _
    simp only [BitVec.getLsbD_append, BitVec.getLsbD_zero]
    split_ifs <;> first | rfl | omega
  rw [BitVec.getLsbD_and, h]
  interval_cases i <;> simp

/-- Masking a request word masks its fields. -/
theorem Req.word_and_mask (op mop : BitVec 5) (pace mpace : BitVec 1) (low : BitVec 2) (addr maddr : BitVec 24)
    (n mn : BitVec 17) (high : BitVec 15) (a b ma mb : BitVec 32) :
    Req.word op pace addr n a b &&& Req.mask mop mpace low maddr mn high ma mb =
      Req.word (op &&& mop) (pace &&& mpace) (addr &&& maddr) (n &&& mn) (a &&& ma) (b &&& mb) := by
  apply BitVec.eq_of_getLsbD_eq
  intro i _
  simp only [BitVec.getLsbD_and, Req.getLsbD_word, Req.getLsbD_mask]
  split_ifs <;> simp

/-- Where each bit of a word of the reserved selectors of `reserved12` comes from (R73). -/
theorem Req.getLsbD_reserved12 (sel : BitVec 1) (rest : BitVec 123) (i : Nat) :
    (rest ++ 0b1001#4 ++ sel : BitVec 128).getLsbD i =
      if i < 1 then sel.getLsbD i else if i < 5 then (0b1001#4).getLsbD (i - 1) else rest.getLsbD (i - 5) := by
  show BitVec.getLsbD (w := 123 + 4 + 1) (rest ++ 0b1001#4 ++ sel) i = _
  simp only [BitVec.getLsbD_append]
  split_ifs <;> first | rfl | omega

/-- Where each bit of a word of the reserved selectors of `reserved14` comes from (R73). -/
theorem Req.getLsbD_reserved14 (sel : BitVec 2) (rest : BitVec 123) (i : Nat) :
    (rest ++ 0b101#3 ++ sel : BitVec 128).getLsbD i =
      if i < 2 then sel.getLsbD i else if i < 5 then (0b101#3).getLsbD (i - 2) else rest.getLsbD (i - 5) := by
  show BitVec.getLsbD (w := 123 + 3 + 2) (rest ++ 0b101#3 ++ sel) i = _
  simp only [BitVec.getLsbD_append]
  split_ifs <;> first | rfl | omega

/-- Where each bit of a word of the reserved selectors of `reserved18` comes from (R73). -/
theorem Req.getLsbD_reserved18 (sel : BitVec 3) (rest : BitVec 123) (i : Nat) :
    (rest ++ 0b11#2 ++ sel : BitVec 128).getLsbD i =
      if i < 3 then sel.getLsbD i else if i < 5 then (0b11#2).getLsbD (i - 3) else rest.getLsbD (i - 5) := by
  show BitVec.getLsbD (w := 123 + 2 + 3) (rest ++ 0b11#2 ++ sel) i = _
  simp only [BitVec.getLsbD_append]
  split_ifs <;> first | rfl | omega

/-! The MPSSE command bytes are pairwise distinct (R9). -/

theorem Config.opcSetLow_ne_opcOut : Config.opcSetLow ≠ Config.opcOut := Config.mpsse.setLow_ne_out
theorem Config.opcSetLow_ne_opcOutIn : Config.opcSetLow ≠ Config.opcOutIn := Config.mpsse.setLow_ne_outIn
theorem Config.opcSetLow_ne_opcWait : Config.opcSetLow ≠ Config.opcWait := Config.mpsse.setLow_ne_wait
theorem Config.opcOut_ne_opcOutIn : Config.opcOut ≠ Config.opcOutIn := Config.mpsse.out_ne_outIn
theorem Config.opcOut_ne_opcWait : Config.opcOut ≠ Config.opcWait := Config.mpsse.out_ne_wait
theorem Config.opcOutIn_ne_opcWait : Config.opcOutIn ≠ Config.opcWait := Config.mpsse.outIn_ne_wait

/-! Lengths of the encodings' parts (R83). -/

@[simp] theorem length_le16 (v : BitVec 16) : (le16 v).length = 2 := rfl
@[simp] theorem length_be24 (a : BitVec 24) : (be24 a).length = 3 := rfl
@[simp] theorem length_encOut (n : Nat) : (encOut n).length = 3 := rfl
@[simp] theorem length_encOutIn (n : Nat) : (encOutIn n).length = 3 := rfl
@[simp] theorem length_encWaitField (f : BitVec 16) : (encWaitField f).length = 3 := rfl
@[simp] theorem length_encWait (c : Nat) : (encWait c).length = 3 := rfl
@[simp] theorem length_encSetLow (v d : Byte) : (encSetLow v d).length = 3 := rfl
@[simp] theorem length_cmdDummy (op : Byte) (ds : Bytes) : (cmdDummy op ds).length = ds.length + 1 := rfl
@[simp] theorem length_cmdAddr (op : Byte) (a : BitVec 24) (data : Bytes) :
    (cmdAddr op a data).length = data.length + 4 := by
  simp [cmdAddr]; omega

end Sys2Proof
end

