-- ==== Sys2Proof/Laws/State.lean ====
section
/-! SUPPORT. One lemma per field per update of the state, so that no proof unfolds a record update. -/

namespace Sys2Proof.Machine

/-! ### State.latchFault -/

@[simp] theorem State.latchFault_dirMask (s : State) (kind : FaultKind) (info0 info1 : BitVec 33) : (s.latchFault kind info0 info1).dirMask = s.dirMask := by
  unfold State.latchFault; split <;> [rfl; split <;> rfl]
@[simp] theorem State.latchFault_valSelect (s : State) (kind : FaultKind) (info0 info1 : BitVec 33) : (s.latchFault kind info0 info1).valSelect = s.valSelect := by
  unfold State.latchFault; split <;> [rfl; split <;> rfl]
@[simp] theorem State.latchFault_valDeselect (s : State) (kind : FaultKind) (info0 info1 : BitVec 33) : (s.latchFault kind info0 info1).valDeselect = s.valDeselect := by
  unfold State.latchFault; split <;> [rfl; split <;> rfl]
@[simp] theorem State.latchFault_pinsValid (s : State) (kind : FaultKind) (info0 info1 : BitVec 33) : (s.latchFault kind info0 info1).pinsValid = s.pinsValid := by
  unfold State.latchFault; split <;> [rfl; split <;> rfl]
@[simp] theorem State.latchFault_sckHz (s : State) (kind : FaultKind) (info0 info1 : BitVec 33) : (s.latchFault kind info0 info1).sckHz = s.sckHz := by
  unfold State.latchFault; split <;> [rfl; split <;> rfl]
@[simp] theorem State.latchFault_cbuf (s : State) (kind : FaultKind) (info0 info1 : BitVec 33) : (s.latchFault kind info0 info1).cbuf = s.cbuf := by
  unfold State.latchFault; split <;> [rfl; split <;> rfl]
@[simp] theorem State.latchFault_respOwed (s : State) (kind : FaultKind) (info0 info1 : BitVec 33) : (s.latchFault kind info0 info1).respOwed = s.respOwed := by
  unfold State.latchFault; split <;> [rfl; split <;> rfl]
@[simp] theorem State.latchFault_rbuf (s : State) (kind : FaultKind) (info0 info1 : BitVec 33) : (s.latchFault kind info0 info1).rbuf = s.rbuf := by
  unfold State.latchFault; split <;> [rfl; split <;> rfl]
@[simp] theorem State.latchFault_result (s : State) (kind : FaultKind) (info0 info1 : BitVec 33) : (s.latchFault kind info0 info1).result = s.result := by
  unfold State.latchFault; split <;> [rfl; split <;> rfl]
@[simp] theorem State.latchFault_spuState (s : State) (kind : FaultKind) (info0 info1 : BitVec 33) : (s.latchFault kind info0 info1).spuState = s.spuState := by
  unfold State.latchFault; split <;> [rfl; split <;> rfl]
@[simp] theorem State.latchFault_pollMs (s : State) (kind : FaultKind) (info0 info1 : BitVec 33) : (s.latchFault kind info0 info1).pollMs = s.pollMs := by
  unfold State.latchFault; split <;> [rfl; split <;> rfl]
@[simp] theorem State.latchFault_budgetMs (s : State) (kind : FaultKind) (info0 info1 : BitVec 33) : (s.latchFault kind info0 info1).budgetMs = s.budgetMs := by
  unfold State.latchFault; split <;> [rfl; split <;> rfl]
@[simp] theorem State.latchFault_elapsedMs (s : State) (kind : FaultKind) (info0 info1 : BitVec 33) : (s.latchFault kind info0 info1).elapsedMs = s.elapsedMs := by
  unfold State.latchFault; split <;> [rfl; split <;> rfl]
@[simp] theorem State.latchFault_statusByte (s : State) (kind : FaultKind) (info0 info1 : BitVec 33) : (s.latchFault kind info0 info1).statusByte = s.statusByte := by
  unfold State.latchFault; split <;> [rfl; split <;> rfl]
@[simp] theorem State.latchFault_statusValid (s : State) (kind : FaultKind) (info0 info1 : BitVec 33) : (s.latchFault kind info0 info1).statusValid = s.statusValid := by
  unfold State.latchFault; split <;> [rfl; split <;> rfl]
@[simp] theorem State.latchFault_req (s : State) (kind : FaultKind) (info0 info1 : BitVec 33) : (s.latchFault kind info0 info1).req = s.req := by
  unfold State.latchFault; split <;> [rfl; split <;> rfl]
@[simp] theorem State.latchFault_pay (s : State) (kind : FaultKind) (info0 info1 : BitVec 33) : (s.latchFault kind info0 info1).pay = s.pay := by
  unfold State.latchFault; split <;> [rfl; split <;> rfl]
@[simp] theorem State.latchFault_flush (s : State) (kind : FaultKind) (info0 info1 : BitVec 33) : (s.latchFault kind info0 info1).flush = s.flush := by
  unfold State.latchFault; split <;> [rfl; split <;> rfl]
@[simp] theorem State.latchFault_base (s : State) (kind : FaultKind) (info0 info1 : BitVec 33) : (s.latchFault kind info0 info1).base = s.base := by
  unfold State.latchFault; split <;> [rfl; split <;> rfl]
@[simp] theorem State.latchFault_extract (s : State) (kind : FaultKind) (info0 info1 : BitVec 33) : (s.latchFault kind info0 info1).extract = s.extract := by
  unfold State.latchFault; split <;> [rfl; split <;> rfl]
@[simp] theorem State.latchFault_resetPin (s : State) (kind : FaultKind) (info0 info1 : BitVec 33) : (s.latchFault kind info0 info1).resetPin = s.resetPin := by
  unfold State.latchFault; split <;> [rfl; split <;> rfl]
@[simp] theorem State.latchFault_offers (s : State) (kind : FaultKind) (info0 info1 : BitVec 33) : (s.latchFault kind info0 info1).offers = s.offers := by
  unfold State.latchFault; split <;> [rfl; split <;> rfl]
@[simp] theorem State.latchFault_tx (s : State) (kind : FaultKind) (info0 info1 : BitVec 33) : (s.latchFault kind info0 info1).tx = s.tx := by
  unfold State.latchFault; split <;> [rfl; split <;> rfl]
@[simp] theorem State.latchFault_txReplies (s : State) (kind : FaultKind) (info0 info1 : BitVec 33) : (s.latchFault kind info0 info1).txReplies = s.txReplies := by
  unfold State.latchFault; split <;> [rfl; split <;> rfl]
@[simp] theorem State.latchFault_rx (s : State) (kind : FaultKind) (info0 info1 : BitVec 33) : (s.latchFault kind info0 info1).rx = s.rx := by
  unfold State.latchFault; split <;> [rfl; split <;> rfl]
@[simp] theorem State.latchFault_wakes (s : State) (kind : FaultKind) (info0 info1 : BitVec 33) : (s.latchFault kind info0 info1).wakes = s.wakes := by
  unfold State.latchFault; split <;> [rfl; split <;> rfl]
@[simp] theorem State.latchFault_afterReset (s : State) (kind : FaultKind) (info0 info1 : BitVec 33) : (s.latchFault kind info0 info1).afterReset = s.afterReset := by
  unfold State.latchFault; split <;> [rfl; split <;> rfl]

/-! ### State.raiseFault -/

@[simp] theorem State.raiseFault_dirMask (s : State) (kind : FaultKind) (info0 info1 : BitVec 33) : (s.raiseFault kind info0 info1).dirMask = s.dirMask := by simp [State.raiseFault]
@[simp] theorem State.raiseFault_valSelect (s : State) (kind : FaultKind) (info0 info1 : BitVec 33) : (s.raiseFault kind info0 info1).valSelect = s.valSelect := by simp [State.raiseFault]
@[simp] theorem State.raiseFault_valDeselect (s : State) (kind : FaultKind) (info0 info1 : BitVec 33) : (s.raiseFault kind info0 info1).valDeselect = s.valDeselect := by simp [State.raiseFault]
@[simp] theorem State.raiseFault_pinsValid (s : State) (kind : FaultKind) (info0 info1 : BitVec 33) : (s.raiseFault kind info0 info1).pinsValid = s.pinsValid := by simp [State.raiseFault]
@[simp] theorem State.raiseFault_sckHz (s : State) (kind : FaultKind) (info0 info1 : BitVec 33) : (s.raiseFault kind info0 info1).sckHz = s.sckHz := by simp [State.raiseFault]
@[simp] theorem State.raiseFault_cbuf (s : State) (kind : FaultKind) (info0 info1 : BitVec 33) : (s.raiseFault kind info0 info1).cbuf = [] := by simp [State.raiseFault]
@[simp] theorem State.raiseFault_respOwed (s : State) (kind : FaultKind) (info0 info1 : BitVec 33) : (s.raiseFault kind info0 info1).respOwed = 0 := by simp [State.raiseFault]
@[simp] theorem State.raiseFault_rbuf (s : State) (kind : FaultKind) (info0 info1 : BitVec 33) : (s.raiseFault kind info0 info1).rbuf = s.rbuf := by simp [State.raiseFault]
@[simp] theorem State.raiseFault_result (s : State) (kind : FaultKind) (info0 info1 : BitVec 33) : (s.raiseFault kind info0 info1).result = .fault kind := by simp [State.raiseFault]
@[simp] theorem State.raiseFault_spuState (s : State) (kind : FaultKind) (info0 info1 : BitVec 33) : (s.raiseFault kind info0 info1).spuState = .idle := by simp [State.raiseFault]
@[simp] theorem State.raiseFault_pollMs (s : State) (kind : FaultKind) (info0 info1 : BitVec 33) : (s.raiseFault kind info0 info1).pollMs = s.pollMs := by simp [State.raiseFault]
@[simp] theorem State.raiseFault_budgetMs (s : State) (kind : FaultKind) (info0 info1 : BitVec 33) : (s.raiseFault kind info0 info1).budgetMs = s.budgetMs := by simp [State.raiseFault]
@[simp] theorem State.raiseFault_elapsedMs (s : State) (kind : FaultKind) (info0 info1 : BitVec 33) : (s.raiseFault kind info0 info1).elapsedMs = s.elapsedMs := by simp [State.raiseFault]
@[simp] theorem State.raiseFault_statusByte (s : State) (kind : FaultKind) (info0 info1 : BitVec 33) : (s.raiseFault kind info0 info1).statusByte = s.statusByte := by simp [State.raiseFault]
@[simp] theorem State.raiseFault_statusValid (s : State) (kind : FaultKind) (info0 info1 : BitVec 33) : (s.raiseFault kind info0 info1).statusValid = s.statusValid := by simp [State.raiseFault]
@[simp] theorem State.raiseFault_fault (s : State) (kind : FaultKind) (info0 info1 : BitVec 33) : (s.raiseFault kind info0 info1).fault = (s.latchFault kind info0 info1).fault := by simp [State.raiseFault]
@[simp] theorem State.raiseFault_cleanupFault (s : State) (kind : FaultKind) (info0 info1 : BitVec 33) : (s.raiseFault kind info0 info1).cleanupFault = (s.latchFault kind info0 info1).cleanupFault := by simp [State.raiseFault]
@[simp] theorem State.raiseFault_req (s : State) (kind : FaultKind) (info0 info1 : BitVec 33) : (s.raiseFault kind info0 info1).req = s.req := by simp [State.raiseFault]
@[simp] theorem State.raiseFault_pay (s : State) (kind : FaultKind) (info0 info1 : BitVec 33) : (s.raiseFault kind info0 info1).pay = s.pay := by simp [State.raiseFault]
@[simp] theorem State.raiseFault_flush (s : State) (kind : FaultKind) (info0 info1 : BitVec 33) : (s.raiseFault kind info0 info1).flush = .idle := by simp [State.raiseFault]
@[simp] theorem State.raiseFault_base (s : State) (kind : FaultKind) (info0 info1 : BitVec 33) : (s.raiseFault kind info0 info1).base = s.base := by simp [State.raiseFault]
@[simp] theorem State.raiseFault_extract (s : State) (kind : FaultKind) (info0 info1 : BitVec 33) : (s.raiseFault kind info0 info1).extract = s.extract := by simp [State.raiseFault]
@[simp] theorem State.raiseFault_resetPin (s : State) (kind : FaultKind) (info0 info1 : BitVec 33) : (s.raiseFault kind info0 info1).resetPin = s.resetPin := by simp [State.raiseFault]
@[simp] theorem State.raiseFault_offers (s : State) (kind : FaultKind) (info0 info1 : BitVec 33) : (s.raiseFault kind info0 info1).offers = s.offers := by simp [State.raiseFault]
@[simp] theorem State.raiseFault_tx (s : State) (kind : FaultKind) (info0 info1 : BitVec 33) : (s.raiseFault kind info0 info1).tx = s.tx := by simp [State.raiseFault]
@[simp] theorem State.raiseFault_txReplies (s : State) (kind : FaultKind) (info0 info1 : BitVec 33) : (s.raiseFault kind info0 info1).txReplies = s.txReplies := by simp [State.raiseFault]
@[simp] theorem State.raiseFault_rx (s : State) (kind : FaultKind) (info0 info1 : BitVec 33) : (s.raiseFault kind info0 info1).rx = s.rx := by simp [State.raiseFault]
@[simp] theorem State.raiseFault_wakes (s : State) (kind : FaultKind) (info0 info1 : BitVec 33) : (s.raiseFault kind info0 info1).wakes = s.wakes := by simp [State.raiseFault]
@[simp] theorem State.raiseFault_afterReset (s : State) (kind : FaultKind) (info0 info1 : BitVec 33) : (s.raiseFault kind info0 info1).afterReset = s.afterReset := by simp [State.raiseFault]

/-! ### State.refuse -/

@[simp] theorem State.refuse_dirMask (s : State) (reason : Reason) : (s.refuse reason).dirMask = s.dirMask := rfl
@[simp] theorem State.refuse_valSelect (s : State) (reason : Reason) : (s.refuse reason).valSelect = s.valSelect := rfl
@[simp] theorem State.refuse_valDeselect (s : State) (reason : Reason) : (s.refuse reason).valDeselect = s.valDeselect := rfl
@[simp] theorem State.refuse_pinsValid (s : State) (reason : Reason) : (s.refuse reason).pinsValid = s.pinsValid := rfl
@[simp] theorem State.refuse_sckHz (s : State) (reason : Reason) : (s.refuse reason).sckHz = s.sckHz := rfl
@[simp] theorem State.refuse_cbuf (s : State) (reason : Reason) : (s.refuse reason).cbuf = s.cbuf := rfl
@[simp] theorem State.refuse_respOwed (s : State) (reason : Reason) : (s.refuse reason).respOwed = s.respOwed := rfl
@[simp] theorem State.refuse_rbuf (s : State) (reason : Reason) : (s.refuse reason).rbuf = s.rbuf := rfl
@[simp] theorem State.refuse_result (s : State) (reason : Reason) : (s.refuse reason).result = .refused reason := rfl
@[simp] theorem State.refuse_spuState (s : State) (reason : Reason) : (s.refuse reason).spuState = s.spuState := rfl
@[simp] theorem State.refuse_pollMs (s : State) (reason : Reason) : (s.refuse reason).pollMs = s.pollMs := rfl
@[simp] theorem State.refuse_budgetMs (s : State) (reason : Reason) : (s.refuse reason).budgetMs = s.budgetMs := rfl
@[simp] theorem State.refuse_elapsedMs (s : State) (reason : Reason) : (s.refuse reason).elapsedMs = s.elapsedMs := rfl
@[simp] theorem State.refuse_statusByte (s : State) (reason : Reason) : (s.refuse reason).statusByte = s.statusByte := rfl
@[simp] theorem State.refuse_statusValid (s : State) (reason : Reason) : (s.refuse reason).statusValid = s.statusValid := rfl
@[simp] theorem State.refuse_fault (s : State) (reason : Reason) : (s.refuse reason).fault = s.fault := rfl
@[simp] theorem State.refuse_cleanupFault (s : State) (reason : Reason) : (s.refuse reason).cleanupFault = s.cleanupFault := rfl
@[simp] theorem State.refuse_req (s : State) (reason : Reason) : (s.refuse reason).req = s.req := rfl
@[simp] theorem State.refuse_pay (s : State) (reason : Reason) : (s.refuse reason).pay = s.pay := rfl
@[simp] theorem State.refuse_flush (s : State) (reason : Reason) : (s.refuse reason).flush = s.flush := rfl
@[simp] theorem State.refuse_base (s : State) (reason : Reason) : (s.refuse reason).base = s.base := rfl
@[simp] theorem State.refuse_extract (s : State) (reason : Reason) : (s.refuse reason).extract = s.extract := rfl
@[simp] theorem State.refuse_resetPin (s : State) (reason : Reason) : (s.refuse reason).resetPin = s.resetPin := rfl
@[simp] theorem State.refuse_offers (s : State) (reason : Reason) : (s.refuse reason).offers = s.offers := rfl
@[simp] theorem State.refuse_tx (s : State) (reason : Reason) : (s.refuse reason).tx = s.tx := rfl
@[simp] theorem State.refuse_txReplies (s : State) (reason : Reason) : (s.refuse reason).txReplies = s.txReplies := rfl
@[simp] theorem State.refuse_rx (s : State) (reason : Reason) : (s.refuse reason).rx = s.rx := rfl
@[simp] theorem State.refuse_wakes (s : State) (reason : Reason) : (s.refuse reason).wakes = s.wakes := rfl
@[simp] theorem State.refuse_afterReset (s : State) (reason : Reason) : (s.refuse reason).afterReset = s.afterReset := rfl

/-! ### State.append -/

@[simp] theorem State.append_dirMask (s : State) (e : Bytes) (r : Nat) : (s.append e r).dirMask = s.dirMask := rfl
@[simp] theorem State.append_valSelect (s : State) (e : Bytes) (r : Nat) : (s.append e r).valSelect = s.valSelect := rfl
@[simp] theorem State.append_valDeselect (s : State) (e : Bytes) (r : Nat) : (s.append e r).valDeselect = s.valDeselect := rfl
@[simp] theorem State.append_pinsValid (s : State) (e : Bytes) (r : Nat) : (s.append e r).pinsValid = s.pinsValid := rfl
@[simp] theorem State.append_sckHz (s : State) (e : Bytes) (r : Nat) : (s.append e r).sckHz = s.sckHz := rfl
@[simp] theorem State.append_cbuf (s : State) (e : Bytes) (r : Nat) : (s.append e r).cbuf = s.cbuf ++ e := rfl
@[simp] theorem State.append_respOwed (s : State) (e : Bytes) (r : Nat) : (s.append e r).respOwed = s.respOwed + r := rfl
@[simp] theorem State.append_rbuf (s : State) (e : Bytes) (r : Nat) : (s.append e r).rbuf = s.rbuf := rfl
@[simp] theorem State.append_result (s : State) (e : Bytes) (r : Nat) : (s.append e r).result = s.result := rfl
@[simp] theorem State.append_spuState (s : State) (e : Bytes) (r : Nat) : (s.append e r).spuState = s.spuState := rfl
@[simp] theorem State.append_pollMs (s : State) (e : Bytes) (r : Nat) : (s.append e r).pollMs = s.pollMs := rfl
@[simp] theorem State.append_budgetMs (s : State) (e : Bytes) (r : Nat) : (s.append e r).budgetMs = s.budgetMs := rfl
@[simp] theorem State.append_elapsedMs (s : State) (e : Bytes) (r : Nat) : (s.append e r).elapsedMs = s.elapsedMs := rfl
@[simp] theorem State.append_statusByte (s : State) (e : Bytes) (r : Nat) : (s.append e r).statusByte = s.statusByte := rfl
@[simp] theorem State.append_statusValid (s : State) (e : Bytes) (r : Nat) : (s.append e r).statusValid = s.statusValid := rfl
@[simp] theorem State.append_fault (s : State) (e : Bytes) (r : Nat) : (s.append e r).fault = s.fault := rfl
@[simp] theorem State.append_cleanupFault (s : State) (e : Bytes) (r : Nat) : (s.append e r).cleanupFault = s.cleanupFault := rfl
@[simp] theorem State.append_req (s : State) (e : Bytes) (r : Nat) : (s.append e r).req = s.req := rfl
@[simp] theorem State.append_pay (s : State) (e : Bytes) (r : Nat) : (s.append e r).pay = s.pay := rfl
@[simp] theorem State.append_flush (s : State) (e : Bytes) (r : Nat) : (s.append e r).flush = s.flush := rfl
@[simp] theorem State.append_base (s : State) (e : Bytes) (r : Nat) : (s.append e r).base = s.base := rfl
@[simp] theorem State.append_extract (s : State) (e : Bytes) (r : Nat) : (s.append e r).extract = s.extract := rfl
@[simp] theorem State.append_resetPin (s : State) (e : Bytes) (r : Nat) : (s.append e r).resetPin = s.resetPin := rfl
@[simp] theorem State.append_offers (s : State) (e : Bytes) (r : Nat) : (s.append e r).offers = s.offers := rfl
@[simp] theorem State.append_tx (s : State) (e : Bytes) (r : Nat) : (s.append e r).tx = s.tx := rfl
@[simp] theorem State.append_txReplies (s : State) (e : Bytes) (r : Nat) : (s.append e r).txReplies = s.txReplies := rfl
@[simp] theorem State.append_rx (s : State) (e : Bytes) (r : Nat) : (s.append e r).rx = s.rx := rfl
@[simp] theorem State.append_wakes (s : State) (e : Bytes) (r : Nat) : (s.append e r).wakes = s.wakes := rfl
@[simp] theorem State.append_afterReset (s : State) (e : Bytes) (r : Nat) : (s.append e r).afterReset = s.afterReset := rfl

/-! ### State.defer -/

@[simp] theorem State.defer_dirMask (s : State) (e : Bytes) (r : Nat) : (s.defer e r).dirMask = s.dirMask := rfl
@[simp] theorem State.defer_valSelect (s : State) (e : Bytes) (r : Nat) : (s.defer e r).valSelect = s.valSelect := rfl
@[simp] theorem State.defer_valDeselect (s : State) (e : Bytes) (r : Nat) : (s.defer e r).valDeselect = s.valDeselect := rfl
@[simp] theorem State.defer_pinsValid (s : State) (e : Bytes) (r : Nat) : (s.defer e r).pinsValid = s.pinsValid := rfl
@[simp] theorem State.defer_sckHz (s : State) (e : Bytes) (r : Nat) : (s.defer e r).sckHz = s.sckHz := rfl
@[simp] theorem State.defer_cbuf (s : State) (e : Bytes) (r : Nat) : (s.defer e r).cbuf = s.cbuf ++ e := rfl
@[simp] theorem State.defer_respOwed (s : State) (e : Bytes) (r : Nat) : (s.defer e r).respOwed = s.respOwed + r := rfl
@[simp] theorem State.defer_rbuf (s : State) (e : Bytes) (r : Nat) : (s.defer e r).rbuf = s.rbuf := rfl
@[simp] theorem State.defer_result (s : State) (e : Bytes) (r : Nat) : (s.defer e r).result = .ok [] := rfl
@[simp] theorem State.defer_spuState (s : State) (e : Bytes) (r : Nat) : (s.defer e r).spuState = s.spuState := rfl
@[simp] theorem State.defer_pollMs (s : State) (e : Bytes) (r : Nat) : (s.defer e r).pollMs = s.pollMs := rfl
@[simp] theorem State.defer_budgetMs (s : State) (e : Bytes) (r : Nat) : (s.defer e r).budgetMs = s.budgetMs := rfl
@[simp] theorem State.defer_elapsedMs (s : State) (e : Bytes) (r : Nat) : (s.defer e r).elapsedMs = s.elapsedMs := rfl
@[simp] theorem State.defer_statusByte (s : State) (e : Bytes) (r : Nat) : (s.defer e r).statusByte = s.statusByte := rfl
@[simp] theorem State.defer_statusValid (s : State) (e : Bytes) (r : Nat) : (s.defer e r).statusValid = s.statusValid := rfl
@[simp] theorem State.defer_fault (s : State) (e : Bytes) (r : Nat) : (s.defer e r).fault = s.fault := rfl
@[simp] theorem State.defer_cleanupFault (s : State) (e : Bytes) (r : Nat) : (s.defer e r).cleanupFault = s.cleanupFault := rfl
@[simp] theorem State.defer_req (s : State) (e : Bytes) (r : Nat) : (s.defer e r).req = s.req := rfl
@[simp] theorem State.defer_pay (s : State) (e : Bytes) (r : Nat) : (s.defer e r).pay = s.pay := rfl
@[simp] theorem State.defer_flush (s : State) (e : Bytes) (r : Nat) : (s.defer e r).flush = s.flush := rfl
@[simp] theorem State.defer_base (s : State) (e : Bytes) (r : Nat) : (s.defer e r).base = s.base := rfl
@[simp] theorem State.defer_extract (s : State) (e : Bytes) (r : Nat) : (s.defer e r).extract = s.extract := rfl
@[simp] theorem State.defer_resetPin (s : State) (e : Bytes) (r : Nat) : (s.defer e r).resetPin = s.resetPin := rfl
@[simp] theorem State.defer_offers (s : State) (e : Bytes) (r : Nat) : (s.defer e r).offers = s.offers := rfl
@[simp] theorem State.defer_tx (s : State) (e : Bytes) (r : Nat) : (s.defer e r).tx = s.tx := rfl
@[simp] theorem State.defer_txReplies (s : State) (e : Bytes) (r : Nat) : (s.defer e r).txReplies = s.txReplies := rfl
@[simp] theorem State.defer_rx (s : State) (e : Bytes) (r : Nat) : (s.defer e r).rx = s.rx := rfl
@[simp] theorem State.defer_wakes (s : State) (e : Bytes) (r : Nat) : (s.defer e r).wakes = s.wakes := rfl
@[simp] theorem State.defer_afterReset (s : State) (e : Bytes) (r : Nat) : (s.defer e r).afterReset = s.afterReset := rfl

/-! ### State.callTxWrite -/

@[simp] theorem State.callTxWrite_dirMask (s : State) : (s.callTxWrite).dirMask = s.dirMask := rfl
@[simp] theorem State.callTxWrite_valSelect (s : State) : (s.callTxWrite).valSelect = s.valSelect := rfl
@[simp] theorem State.callTxWrite_valDeselect (s : State) : (s.callTxWrite).valDeselect = s.valDeselect := rfl
@[simp] theorem State.callTxWrite_pinsValid (s : State) : (s.callTxWrite).pinsValid = s.pinsValid := rfl
@[simp] theorem State.callTxWrite_sckHz (s : State) : (s.callTxWrite).sckHz = s.sckHz := rfl
@[simp] theorem State.callTxWrite_cbuf (s : State) : (s.callTxWrite).cbuf = s.cbuf := rfl
@[simp] theorem State.callTxWrite_respOwed (s : State) : (s.callTxWrite).respOwed = s.respOwed := rfl
@[simp] theorem State.callTxWrite_rbuf (s : State) : (s.callTxWrite).rbuf = s.rbuf := rfl
@[simp] theorem State.callTxWrite_result (s : State) : (s.callTxWrite).result = s.result := rfl
@[simp] theorem State.callTxWrite_spuState (s : State) : (s.callTxWrite).spuState = s.spuState := rfl
@[simp] theorem State.callTxWrite_pollMs (s : State) : (s.callTxWrite).pollMs = s.pollMs := rfl
@[simp] theorem State.callTxWrite_budgetMs (s : State) : (s.callTxWrite).budgetMs = s.budgetMs := rfl
@[simp] theorem State.callTxWrite_elapsedMs (s : State) : (s.callTxWrite).elapsedMs = s.elapsedMs := rfl
@[simp] theorem State.callTxWrite_statusByte (s : State) : (s.callTxWrite).statusByte = s.statusByte := rfl
@[simp] theorem State.callTxWrite_statusValid (s : State) : (s.callTxWrite).statusValid = s.statusValid := rfl
@[simp] theorem State.callTxWrite_fault (s : State) : (s.callTxWrite).fault = s.fault := rfl
@[simp] theorem State.callTxWrite_cleanupFault (s : State) : (s.callTxWrite).cleanupFault = s.cleanupFault := rfl
@[simp] theorem State.callTxWrite_req (s : State) : (s.callTxWrite).req = s.req := rfl
@[simp] theorem State.callTxWrite_pay (s : State) : (s.callTxWrite).pay = s.pay := rfl
@[simp] theorem State.callTxWrite_flush (s : State) : (s.callTxWrite).flush = s.flush := rfl
@[simp] theorem State.callTxWrite_base (s : State) : (s.callTxWrite).base = s.base := rfl
@[simp] theorem State.callTxWrite_extract (s : State) : (s.callTxWrite).extract = s.extract := rfl
@[simp] theorem State.callTxWrite_resetPin (s : State) : (s.callTxWrite).resetPin = s.resetPin := rfl
@[simp] theorem State.callTxWrite_offers (s : State) : (s.callTxWrite).offers = s.offers := rfl
@[simp] theorem State.callTxWrite_tx (s : State) : (s.callTxWrite).tx = s.tx ++ [s.cbuf] := rfl
@[simp] theorem State.callTxWrite_txReplies (s : State) : (s.callTxWrite).txReplies = s.txReplies := rfl
@[simp] theorem State.callTxWrite_rx (s : State) : (s.callTxWrite).rx = s.rx := rfl
@[simp] theorem State.callTxWrite_wakes (s : State) : (s.callTxWrite).wakes = s.wakes := rfl
@[simp] theorem State.callTxWrite_afterReset (s : State) : (s.callTxWrite).afterReset = s.afterReset := rfl

/-! ### State.endFlush -/

@[simp] theorem State.endFlush_dirMask (s : State) (r : Bytes) : (s.endFlush r).dirMask = s.dirMask := rfl
@[simp] theorem State.endFlush_valSelect (s : State) (r : Bytes) : (s.endFlush r).valSelect = s.valSelect := rfl
@[simp] theorem State.endFlush_valDeselect (s : State) (r : Bytes) : (s.endFlush r).valDeselect = s.valDeselect := rfl
@[simp] theorem State.endFlush_pinsValid (s : State) (r : Bytes) : (s.endFlush r).pinsValid = s.pinsValid := rfl
@[simp] theorem State.endFlush_sckHz (s : State) (r : Bytes) : (s.endFlush r).sckHz = s.sckHz := rfl
@[simp] theorem State.endFlush_cbuf (s : State) (r : Bytes) : (s.endFlush r).cbuf = [] := rfl
@[simp] theorem State.endFlush_respOwed (s : State) (r : Bytes) : (s.endFlush r).respOwed = 0 := rfl
@[simp] theorem State.endFlush_rbuf (s : State) (r : Bytes) : (s.endFlush r).rbuf = r := rfl
@[simp] theorem State.endFlush_result (s : State) (r : Bytes) : (s.endFlush r).result = .ok (extractData s.extract s.base r) := rfl
@[simp] theorem State.endFlush_spuState (s : State) (r : Bytes) : (s.endFlush r).spuState = s.spuState := rfl
@[simp] theorem State.endFlush_pollMs (s : State) (r : Bytes) : (s.endFlush r).pollMs = s.pollMs := rfl
@[simp] theorem State.endFlush_budgetMs (s : State) (r : Bytes) : (s.endFlush r).budgetMs = s.budgetMs := rfl
@[simp] theorem State.endFlush_elapsedMs (s : State) (r : Bytes) : (s.endFlush r).elapsedMs = s.elapsedMs := rfl
@[simp] theorem State.endFlush_statusByte (s : State) (r : Bytes) : (s.endFlush r).statusByte = s.statusByte := rfl
@[simp] theorem State.endFlush_statusValid (s : State) (r : Bytes) : (s.endFlush r).statusValid = s.statusValid := rfl
@[simp] theorem State.endFlush_fault (s : State) (r : Bytes) : (s.endFlush r).fault = s.fault := rfl
@[simp] theorem State.endFlush_cleanupFault (s : State) (r : Bytes) : (s.endFlush r).cleanupFault = s.cleanupFault := rfl
@[simp] theorem State.endFlush_req (s : State) (r : Bytes) : (s.endFlush r).req = s.req := rfl
@[simp] theorem State.endFlush_pay (s : State) (r : Bytes) : (s.endFlush r).pay = s.pay := rfl
@[simp] theorem State.endFlush_flush (s : State) (r : Bytes) : (s.endFlush r).flush = .idle := rfl
@[simp] theorem State.endFlush_base (s : State) (r : Bytes) : (s.endFlush r).base = s.base := rfl
@[simp] theorem State.endFlush_extract (s : State) (r : Bytes) : (s.endFlush r).extract = s.extract := rfl
@[simp] theorem State.endFlush_resetPin (s : State) (r : Bytes) : (s.endFlush r).resetPin = s.resetPin := rfl
@[simp] theorem State.endFlush_offers (s : State) (r : Bytes) : (s.endFlush r).offers = s.offers := rfl
@[simp] theorem State.endFlush_tx (s : State) (r : Bytes) : (s.endFlush r).tx = s.tx := rfl
@[simp] theorem State.endFlush_txReplies (s : State) (r : Bytes) : (s.endFlush r).txReplies = s.txReplies := rfl
@[simp] theorem State.endFlush_rx (s : State) (r : Bytes) : (s.endFlush r).rx = s.rx := rfl
@[simp] theorem State.endFlush_wakes (s : State) (r : Bytes) : (s.endFlush r).wakes = s.wakes := rfl
@[simp] theorem State.endFlush_afterReset (s : State) (r : Bytes) : (s.endFlush r).afterReset = s.afterReset := rfl

/-! ### State.issuePoll -/

@[simp] theorem State.issuePoll_dirMask (s : State) : (s.issuePoll).dirMask = s.dirMask := rfl
@[simp] theorem State.issuePoll_valSelect (s : State) : (s.issuePoll).valSelect = s.valSelect := rfl
@[simp] theorem State.issuePoll_valDeselect (s : State) : (s.issuePoll).valDeselect = s.valDeselect := rfl
@[simp] theorem State.issuePoll_pinsValid (s : State) : (s.issuePoll).pinsValid = s.pinsValid := rfl
@[simp] theorem State.issuePoll_sckHz (s : State) : (s.issuePoll).sckHz = s.sckHz := rfl
@[simp] theorem State.issuePoll_cbuf (s : State) : (s.issuePoll).cbuf = s.cbuf ++ s.pollBytes := rfl
@[simp] theorem State.issuePoll_respOwed (s : State) : (s.issuePoll).respOwed = s.respOwed + 2 := rfl
@[simp] theorem State.issuePoll_rbuf (s : State) : (s.issuePoll).rbuf = s.rbuf := rfl
@[simp] theorem State.issuePoll_result (s : State) : (s.issuePoll).result = s.result := rfl
@[simp] theorem State.issuePoll_spuState (s : State) : (s.issuePoll).spuState = .pollTx := rfl
@[simp] theorem State.issuePoll_pollMs (s : State) : (s.issuePoll).pollMs = s.pollMs := rfl
@[simp] theorem State.issuePoll_budgetMs (s : State) : (s.issuePoll).budgetMs = s.budgetMs := rfl
@[simp] theorem State.issuePoll_elapsedMs (s : State) : (s.issuePoll).elapsedMs = s.elapsedMs := rfl
@[simp] theorem State.issuePoll_statusByte (s : State) : (s.issuePoll).statusByte = s.statusByte := rfl
@[simp] theorem State.issuePoll_statusValid (s : State) : (s.issuePoll).statusValid = s.statusValid := rfl
@[simp] theorem State.issuePoll_fault (s : State) : (s.issuePoll).fault = s.fault := rfl
@[simp] theorem State.issuePoll_cleanupFault (s : State) : (s.issuePoll).cleanupFault = s.cleanupFault := rfl
@[simp] theorem State.issuePoll_req (s : State) : (s.issuePoll).req = s.req := rfl
@[simp] theorem State.issuePoll_pay (s : State) : (s.issuePoll).pay = s.pay := rfl
@[simp] theorem State.issuePoll_flush (s : State) : (s.issuePoll).flush = s.flush := rfl
@[simp] theorem State.issuePoll_base (s : State) : (s.issuePoll).base = s.respOwed := rfl
@[simp] theorem State.issuePoll_extract (s : State) : (s.issuePoll).extract = s.extract := rfl
@[simp] theorem State.issuePoll_resetPin (s : State) : (s.issuePoll).resetPin = s.resetPin := rfl
@[simp] theorem State.issuePoll_offers (s : State) : (s.issuePoll).offers = s.offers := rfl
@[simp] theorem State.issuePoll_tx (s : State) : (s.issuePoll).tx = s.tx ++ [s.cbuf ++ s.pollBytes] := rfl
@[simp] theorem State.issuePoll_txReplies (s : State) : (s.issuePoll).txReplies = s.txReplies := rfl
@[simp] theorem State.issuePoll_rx (s : State) : (s.issuePoll).rx = s.rx := rfl
@[simp] theorem State.issuePoll_wakes (s : State) : (s.issuePoll).wakes = s.wakes := rfl
@[simp] theorem State.issuePoll_afterReset (s : State) : (s.issuePoll).afterReset = s.afterReset := rfl

/-! ### State.setPins -/

@[simp] theorem State.setPins_dirMask (s : State) (dir sel desel : Byte) : (s.setPins dir sel desel).dirMask = dir := rfl
@[simp] theorem State.setPins_valSelect (s : State) (dir sel desel : Byte) : (s.setPins dir sel desel).valSelect = sel := rfl
@[simp] theorem State.setPins_valDeselect (s : State) (dir sel desel : Byte) : (s.setPins dir sel desel).valDeselect = desel := rfl
@[simp] theorem State.setPins_pinsValid (s : State) (dir sel desel : Byte) : (s.setPins dir sel desel).pinsValid = true := rfl
@[simp] theorem State.setPins_sckHz (s : State) (dir sel desel : Byte) : (s.setPins dir sel desel).sckHz = s.sckHz := rfl
@[simp] theorem State.setPins_cbuf (s : State) (dir sel desel : Byte) : (s.setPins dir sel desel).cbuf = s.cbuf := rfl
@[simp] theorem State.setPins_respOwed (s : State) (dir sel desel : Byte) : (s.setPins dir sel desel).respOwed = s.respOwed := rfl
@[simp] theorem State.setPins_rbuf (s : State) (dir sel desel : Byte) : (s.setPins dir sel desel).rbuf = s.rbuf := rfl
@[simp] theorem State.setPins_result (s : State) (dir sel desel : Byte) : (s.setPins dir sel desel).result = .ok [] := rfl
@[simp] theorem State.setPins_spuState (s : State) (dir sel desel : Byte) : (s.setPins dir sel desel).spuState = s.spuState := rfl
@[simp] theorem State.setPins_pollMs (s : State) (dir sel desel : Byte) : (s.setPins dir sel desel).pollMs = s.pollMs := rfl
@[simp] theorem State.setPins_budgetMs (s : State) (dir sel desel : Byte) : (s.setPins dir sel desel).budgetMs = s.budgetMs := rfl
@[simp] theorem State.setPins_elapsedMs (s : State) (dir sel desel : Byte) : (s.setPins dir sel desel).elapsedMs = s.elapsedMs := rfl
@[simp] theorem State.setPins_statusByte (s : State) (dir sel desel : Byte) : (s.setPins dir sel desel).statusByte = s.statusByte := rfl
@[simp] theorem State.setPins_statusValid (s : State) (dir sel desel : Byte) : (s.setPins dir sel desel).statusValid = s.statusValid := rfl
@[simp] theorem State.setPins_fault (s : State) (dir sel desel : Byte) : (s.setPins dir sel desel).fault = s.fault := rfl
@[simp] theorem State.setPins_cleanupFault (s : State) (dir sel desel : Byte) : (s.setPins dir sel desel).cleanupFault = s.cleanupFault := rfl
@[simp] theorem State.setPins_req (s : State) (dir sel desel : Byte) : (s.setPins dir sel desel).req = s.req := rfl
@[simp] theorem State.setPins_pay (s : State) (dir sel desel : Byte) : (s.setPins dir sel desel).pay = s.pay := rfl
@[simp] theorem State.setPins_flush (s : State) (dir sel desel : Byte) : (s.setPins dir sel desel).flush = s.flush := rfl
@[simp] theorem State.setPins_base (s : State) (dir sel desel : Byte) : (s.setPins dir sel desel).base = s.base := rfl
@[simp] theorem State.setPins_extract (s : State) (dir sel desel : Byte) : (s.setPins dir sel desel).extract = s.extract := rfl
@[simp] theorem State.setPins_resetPin (s : State) (dir sel desel : Byte) : (s.setPins dir sel desel).resetPin = s.resetPin := rfl
@[simp] theorem State.setPins_offers (s : State) (dir sel desel : Byte) : (s.setPins dir sel desel).offers = s.offers := rfl
@[simp] theorem State.setPins_tx (s : State) (dir sel desel : Byte) : (s.setPins dir sel desel).tx = s.tx := rfl
@[simp] theorem State.setPins_txReplies (s : State) (dir sel desel : Byte) : (s.setPins dir sel desel).txReplies = s.txReplies := rfl
@[simp] theorem State.setPins_rx (s : State) (dir sel desel : Byte) : (s.setPins dir sel desel).rx = s.rx := rfl
@[simp] theorem State.setPins_wakes (s : State) (dir sel desel : Byte) : (s.setPins dir sel desel).wakes = s.wakes := rfl
@[simp] theorem State.setPins_afterReset (s : State) (dir sel desel : Byte) : (s.setPins dir sel desel).afterReset = s.afterReset := rfl

/-! ### State.setClock -/

@[simp] theorem State.setClock_dirMask (s : State) (hz : BitVec 32) : (s.setClock hz).dirMask = s.dirMask := rfl
@[simp] theorem State.setClock_valSelect (s : State) (hz : BitVec 32) : (s.setClock hz).valSelect = s.valSelect := rfl
@[simp] theorem State.setClock_valDeselect (s : State) (hz : BitVec 32) : (s.setClock hz).valDeselect = s.valDeselect := rfl
@[simp] theorem State.setClock_pinsValid (s : State) (hz : BitVec 32) : (s.setClock hz).pinsValid = s.pinsValid := rfl
@[simp] theorem State.setClock_sckHz (s : State) (hz : BitVec 32) : (s.setClock hz).sckHz = hz := rfl
@[simp] theorem State.setClock_cbuf (s : State) (hz : BitVec 32) : (s.setClock hz).cbuf = s.cbuf := rfl
@[simp] theorem State.setClock_respOwed (s : State) (hz : BitVec 32) : (s.setClock hz).respOwed = s.respOwed := rfl
@[simp] theorem State.setClock_rbuf (s : State) (hz : BitVec 32) : (s.setClock hz).rbuf = s.rbuf := rfl
@[simp] theorem State.setClock_result (s : State) (hz : BitVec 32) : (s.setClock hz).result = .ok [] := rfl
@[simp] theorem State.setClock_spuState (s : State) (hz : BitVec 32) : (s.setClock hz).spuState = s.spuState := rfl
@[simp] theorem State.setClock_pollMs (s : State) (hz : BitVec 32) : (s.setClock hz).pollMs = s.pollMs := rfl
@[simp] theorem State.setClock_budgetMs (s : State) (hz : BitVec 32) : (s.setClock hz).budgetMs = s.budgetMs := rfl
@[simp] theorem State.setClock_elapsedMs (s : State) (hz : BitVec 32) : (s.setClock hz).elapsedMs = s.elapsedMs := rfl
@[simp] theorem State.setClock_statusByte (s : State) (hz : BitVec 32) : (s.setClock hz).statusByte = s.statusByte := rfl
@[simp] theorem State.setClock_statusValid (s : State) (hz : BitVec 32) : (s.setClock hz).statusValid = s.statusValid := rfl
@[simp] theorem State.setClock_fault (s : State) (hz : BitVec 32) : (s.setClock hz).fault = s.fault := rfl
@[simp] theorem State.setClock_cleanupFault (s : State) (hz : BitVec 32) : (s.setClock hz).cleanupFault = s.cleanupFault := rfl
@[simp] theorem State.setClock_req (s : State) (hz : BitVec 32) : (s.setClock hz).req = s.req := rfl
@[simp] theorem State.setClock_pay (s : State) (hz : BitVec 32) : (s.setClock hz).pay = s.pay := rfl
@[simp] theorem State.setClock_flush (s : State) (hz : BitVec 32) : (s.setClock hz).flush = s.flush := rfl
@[simp] theorem State.setClock_base (s : State) (hz : BitVec 32) : (s.setClock hz).base = s.base := rfl
@[simp] theorem State.setClock_extract (s : State) (hz : BitVec 32) : (s.setClock hz).extract = s.extract := rfl
@[simp] theorem State.setClock_resetPin (s : State) (hz : BitVec 32) : (s.setClock hz).resetPin = s.resetPin := rfl
@[simp] theorem State.setClock_offers (s : State) (hz : BitVec 32) : (s.setClock hz).offers = s.offers := rfl
@[simp] theorem State.setClock_tx (s : State) (hz : BitVec 32) : (s.setClock hz).tx = s.tx := rfl
@[simp] theorem State.setClock_txReplies (s : State) (hz : BitVec 32) : (s.setClock hz).txReplies = s.txReplies := rfl
@[simp] theorem State.setClock_rx (s : State) (hz : BitVec 32) : (s.setClock hz).rx = s.rx := rfl
@[simp] theorem State.setClock_wakes (s : State) (hz : BitVec 32) : (s.setClock hz).wakes = s.wakes := rfl
@[simp] theorem State.setClock_afterReset (s : State) (hz : BitVec 32) : (s.setClock hz).afterReset = s.afterReset := rfl

/-! ### State.startWait -/

@[simp] theorem State.startWait_dirMask (s : State) (poll budget : BitVec 32) : (s.startWait poll budget).dirMask = s.dirMask := rfl
@[simp] theorem State.startWait_valSelect (s : State) (poll budget : BitVec 32) : (s.startWait poll budget).valSelect = s.valSelect := rfl
@[simp] theorem State.startWait_valDeselect (s : State) (poll budget : BitVec 32) : (s.startWait poll budget).valDeselect = s.valDeselect := rfl
@[simp] theorem State.startWait_pinsValid (s : State) (poll budget : BitVec 32) : (s.startWait poll budget).pinsValid = s.pinsValid := rfl
@[simp] theorem State.startWait_sckHz (s : State) (poll budget : BitVec 32) : (s.startWait poll budget).sckHz = s.sckHz := rfl
@[simp] theorem State.startWait_cbuf (s : State) (poll budget : BitVec 32) : (s.startWait poll budget).cbuf = s.cbuf ++ s.pollBytes := rfl
@[simp] theorem State.startWait_respOwed (s : State) (poll budget : BitVec 32) : (s.startWait poll budget).respOwed = s.respOwed + 2 := rfl
@[simp] theorem State.startWait_rbuf (s : State) (poll budget : BitVec 32) : (s.startWait poll budget).rbuf = s.rbuf := rfl
@[simp] theorem State.startWait_result (s : State) (poll budget : BitVec 32) : (s.startWait poll budget).result = s.result := rfl
@[simp] theorem State.startWait_spuState (s : State) (poll budget : BitVec 32) : (s.startWait poll budget).spuState = .pollTx := rfl
@[simp] theorem State.startWait_pollMs (s : State) (poll budget : BitVec 32) : (s.startWait poll budget).pollMs = poll := rfl
@[simp] theorem State.startWait_budgetMs (s : State) (poll budget : BitVec 32) : (s.startWait poll budget).budgetMs = budget := rfl
@[simp] theorem State.startWait_elapsedMs (s : State) (poll budget : BitVec 32) : (s.startWait poll budget).elapsedMs = 0 := rfl
@[simp] theorem State.startWait_statusByte (s : State) (poll budget : BitVec 32) : (s.startWait poll budget).statusByte = s.statusByte := rfl
@[simp] theorem State.startWait_statusValid (s : State) (poll budget : BitVec 32) : (s.startWait poll budget).statusValid = s.statusValid := rfl
@[simp] theorem State.startWait_fault (s : State) (poll budget : BitVec 32) : (s.startWait poll budget).fault = s.fault := rfl
@[simp] theorem State.startWait_cleanupFault (s : State) (poll budget : BitVec 32) : (s.startWait poll budget).cleanupFault = s.cleanupFault := rfl
@[simp] theorem State.startWait_req (s : State) (poll budget : BitVec 32) : (s.startWait poll budget).req = s.req := rfl
@[simp] theorem State.startWait_pay (s : State) (poll budget : BitVec 32) : (s.startWait poll budget).pay = s.pay := rfl
@[simp] theorem State.startWait_flush (s : State) (poll budget : BitVec 32) : (s.startWait poll budget).flush = s.flush := rfl
@[simp] theorem State.startWait_base (s : State) (poll budget : BitVec 32) : (s.startWait poll budget).base = s.respOwed := rfl
@[simp] theorem State.startWait_extract (s : State) (poll budget : BitVec 32) : (s.startWait poll budget).extract = s.extract := rfl
@[simp] theorem State.startWait_resetPin (s : State) (poll budget : BitVec 32) : (s.startWait poll budget).resetPin = s.resetPin := rfl
@[simp] theorem State.startWait_offers (s : State) (poll budget : BitVec 32) : (s.startWait poll budget).offers = s.offers := rfl
@[simp] theorem State.startWait_tx (s : State) (poll budget : BitVec 32) : (s.startWait poll budget).tx = s.tx ++ [s.cbuf ++ s.pollBytes] := rfl
@[simp] theorem State.startWait_txReplies (s : State) (poll budget : BitVec 32) : (s.startWait poll budget).txReplies = s.txReplies := rfl
@[simp] theorem State.startWait_rx (s : State) (poll budget : BitVec 32) : (s.startWait poll budget).rx = s.rx := rfl
@[simp] theorem State.startWait_wakes (s : State) (poll budget : BitVec 32) : (s.startWait poll budget).wakes = s.wakes := rfl
@[simp] theorem State.startWait_afterReset (s : State) (poll budget : BitVec 32) : (s.startWait poll budget).afterReset = s.afterReset := rfl

/-! ### State.storePoll -/

@[simp] theorem State.storePoll_dirMask (s : State) (r : Bytes) : (s.storePoll r).dirMask = s.dirMask := rfl
@[simp] theorem State.storePoll_valSelect (s : State) (r : Bytes) : (s.storePoll r).valSelect = s.valSelect := rfl
@[simp] theorem State.storePoll_valDeselect (s : State) (r : Bytes) : (s.storePoll r).valDeselect = s.valDeselect := rfl
@[simp] theorem State.storePoll_pinsValid (s : State) (r : Bytes) : (s.storePoll r).pinsValid = s.pinsValid := rfl
@[simp] theorem State.storePoll_sckHz (s : State) (r : Bytes) : (s.storePoll r).sckHz = s.sckHz := rfl
@[simp] theorem State.storePoll_cbuf (s : State) (r : Bytes) : (s.storePoll r).cbuf = [] := rfl
@[simp] theorem State.storePoll_respOwed (s : State) (r : Bytes) : (s.storePoll r).respOwed = 0 := rfl
@[simp] theorem State.storePoll_rbuf (s : State) (r : Bytes) : (s.storePoll r).rbuf = r := rfl
@[simp] theorem State.storePoll_result (s : State) (r : Bytes) : (s.storePoll r).result = s.result := rfl
@[simp] theorem State.storePoll_spuState (s : State) (r : Bytes) : (s.storePoll r).spuState = s.spuState := rfl
@[simp] theorem State.storePoll_pollMs (s : State) (r : Bytes) : (s.storePoll r).pollMs = s.pollMs := rfl
@[simp] theorem State.storePoll_budgetMs (s : State) (r : Bytes) : (s.storePoll r).budgetMs = s.budgetMs := rfl
@[simp] theorem State.storePoll_elapsedMs (s : State) (r : Bytes) : (s.storePoll r).elapsedMs = s.elapsedMs := rfl
@[simp] theorem State.storePoll_statusByte (s : State) (r : Bytes) : (s.storePoll r).statusByte = s.polledByte r := rfl
@[simp] theorem State.storePoll_statusValid (s : State) (r : Bytes) : (s.storePoll r).statusValid = true := rfl
@[simp] theorem State.storePoll_fault (s : State) (r : Bytes) : (s.storePoll r).fault = s.fault := rfl
@[simp] theorem State.storePoll_cleanupFault (s : State) (r : Bytes) : (s.storePoll r).cleanupFault = s.cleanupFault := rfl
@[simp] theorem State.storePoll_req (s : State) (r : Bytes) : (s.storePoll r).req = s.req := rfl
@[simp] theorem State.storePoll_pay (s : State) (r : Bytes) : (s.storePoll r).pay = s.pay := rfl
@[simp] theorem State.storePoll_flush (s : State) (r : Bytes) : (s.storePoll r).flush = s.flush := rfl
@[simp] theorem State.storePoll_base (s : State) (r : Bytes) : (s.storePoll r).base = s.base := rfl
@[simp] theorem State.storePoll_extract (s : State) (r : Bytes) : (s.storePoll r).extract = s.extract := rfl
@[simp] theorem State.storePoll_resetPin (s : State) (r : Bytes) : (s.storePoll r).resetPin = s.resetPin := rfl
@[simp] theorem State.storePoll_offers (s : State) (r : Bytes) : (s.storePoll r).offers = s.offers := rfl
@[simp] theorem State.storePoll_tx (s : State) (r : Bytes) : (s.storePoll r).tx = s.tx := rfl
@[simp] theorem State.storePoll_txReplies (s : State) (r : Bytes) : (s.storePoll r).txReplies = s.txReplies := rfl
@[simp] theorem State.storePoll_rx (s : State) (r : Bytes) : (s.storePoll r).rx = s.rx := rfl
@[simp] theorem State.storePoll_wakes (s : State) (r : Bytes) : (s.storePoll r).wakes = s.wakes := rfl
@[simp] theorem State.storePoll_afterReset (s : State) (r : Bytes) : (s.storePoll r).afterReset = s.afterReset := rfl

/-! ### State.accept -/

@[simp] theorem State.accept_dirMask (s : State) (o : Offer) (rest : List Offer) : (s.accept o rest).dirMask = s.dirMask := by cases o <;> rfl
@[simp] theorem State.accept_valSelect (s : State) (o : Offer) (rest : List Offer) : (s.accept o rest).valSelect = s.valSelect := by cases o <;> rfl
@[simp] theorem State.accept_valDeselect (s : State) (o : Offer) (rest : List Offer) : (s.accept o rest).valDeselect = s.valDeselect := by cases o <;> rfl
@[simp] theorem State.accept_pinsValid (s : State) (o : Offer) (rest : List Offer) : (s.accept o rest).pinsValid = s.pinsValid := by cases o <;> rfl
@[simp] theorem State.accept_sckHz (s : State) (o : Offer) (rest : List Offer) : (s.accept o rest).sckHz = s.sckHz := by cases o <;> rfl
@[simp] theorem State.accept_cbuf (s : State) (o : Offer) (rest : List Offer) : (s.accept o rest).cbuf = s.cbuf := by cases o <;> rfl
@[simp] theorem State.accept_respOwed (s : State) (o : Offer) (rest : List Offer) : (s.accept o rest).respOwed = s.respOwed := by cases o <;> rfl
@[simp] theorem State.accept_rbuf (s : State) (o : Offer) (rest : List Offer) : (s.accept o rest).rbuf = s.rbuf := by cases o <;> rfl
@[simp] theorem State.accept_result (s : State) (o : Offer) (rest : List Offer) : (s.accept o rest).result = s.result := by cases o <;> rfl
@[simp] theorem State.accept_spuState (s : State) (o : Offer) (rest : List Offer) : (s.accept o rest).spuState = s.spuState := by cases o <;> rfl
@[simp] theorem State.accept_pollMs (s : State) (o : Offer) (rest : List Offer) : (s.accept o rest).pollMs = s.pollMs := by cases o <;> rfl
@[simp] theorem State.accept_budgetMs (s : State) (o : Offer) (rest : List Offer) : (s.accept o rest).budgetMs = s.budgetMs := by cases o <;> rfl
@[simp] theorem State.accept_elapsedMs (s : State) (o : Offer) (rest : List Offer) : (s.accept o rest).elapsedMs = s.elapsedMs := by cases o <;> rfl
@[simp] theorem State.accept_statusByte (s : State) (o : Offer) (rest : List Offer) : (s.accept o rest).statusByte = s.statusByte := by cases o <;> rfl
@[simp] theorem State.accept_statusValid (s : State) (o : Offer) (rest : List Offer) : (s.accept o rest).statusValid = s.statusValid := by cases o <;> rfl
@[simp] theorem State.accept_fault (s : State) (o : Offer) (rest : List Offer) : (s.accept o rest).fault = s.fault := by cases o <;> rfl
@[simp] theorem State.accept_cleanupFault (s : State) (o : Offer) (rest : List Offer) : (s.accept o rest).cleanupFault = s.cleanupFault := by cases o <;> rfl
@[simp] theorem State.accept_flush (s : State) (o : Offer) (rest : List Offer) : (s.accept o rest).flush = s.flush := by cases o <;> rfl
@[simp] theorem State.accept_base (s : State) (o : Offer) (rest : List Offer) : (s.accept o rest).base = s.base := by cases o <;> rfl
@[simp] theorem State.accept_extract (s : State) (o : Offer) (rest : List Offer) : (s.accept o rest).extract = s.extract := by cases o <;> rfl
@[simp] theorem State.accept_resetPin (s : State) (o : Offer) (rest : List Offer) : (s.accept o rest).resetPin = s.resetPin := by cases o <;> rfl
@[simp] theorem State.accept_offers (s : State) (o : Offer) (rest : List Offer) : (s.accept o rest).offers = rest := by cases o <;> rfl
@[simp] theorem State.accept_tx (s : State) (o : Offer) (rest : List Offer) : (s.accept o rest).tx = s.tx := by cases o <;> rfl
@[simp] theorem State.accept_txReplies (s : State) (o : Offer) (rest : List Offer) : (s.accept o rest).txReplies = s.txReplies := by cases o <;> rfl
@[simp] theorem State.accept_rx (s : State) (o : Offer) (rest : List Offer) : (s.accept o rest).rx = s.rx := by cases o <;> rfl
@[simp] theorem State.accept_wakes (s : State) (o : Offer) (rest : List Offer) : (s.accept o rest).wakes = s.wakes := by cases o <;> rfl
@[simp] theorem State.accept_afterReset (s : State) (o : Offer) (rest : List Offer) : (s.accept o rest).afterReset = s.afterReset := by cases o <;> rfl

/-! ### State.withOffer -/

@[simp] theorem State.withOffer_dirMask (s : State) (o : Offer) : (s.withOffer o).dirMask = s.dirMask := rfl
@[simp] theorem State.withOffer_valSelect (s : State) (o : Offer) : (s.withOffer o).valSelect = s.valSelect := rfl
@[simp] theorem State.withOffer_valDeselect (s : State) (o : Offer) : (s.withOffer o).valDeselect = s.valDeselect := rfl
@[simp] theorem State.withOffer_pinsValid (s : State) (o : Offer) : (s.withOffer o).pinsValid = s.pinsValid := rfl
@[simp] theorem State.withOffer_sckHz (s : State) (o : Offer) : (s.withOffer o).sckHz = s.sckHz := rfl
@[simp] theorem State.withOffer_cbuf (s : State) (o : Offer) : (s.withOffer o).cbuf = s.cbuf := rfl
@[simp] theorem State.withOffer_respOwed (s : State) (o : Offer) : (s.withOffer o).respOwed = s.respOwed := rfl
@[simp] theorem State.withOffer_rbuf (s : State) (o : Offer) : (s.withOffer o).rbuf = s.rbuf := rfl
@[simp] theorem State.withOffer_result (s : State) (o : Offer) : (s.withOffer o).result = s.result := rfl
@[simp] theorem State.withOffer_spuState (s : State) (o : Offer) : (s.withOffer o).spuState = .idle := rfl
@[simp] theorem State.withOffer_pollMs (s : State) (o : Offer) : (s.withOffer o).pollMs = s.pollMs := rfl
@[simp] theorem State.withOffer_budgetMs (s : State) (o : Offer) : (s.withOffer o).budgetMs = s.budgetMs := rfl
@[simp] theorem State.withOffer_elapsedMs (s : State) (o : Offer) : (s.withOffer o).elapsedMs = s.elapsedMs := rfl
@[simp] theorem State.withOffer_statusByte (s : State) (o : Offer) : (s.withOffer o).statusByte = s.statusByte := rfl
@[simp] theorem State.withOffer_statusValid (s : State) (o : Offer) : (s.withOffer o).statusValid = s.statusValid := rfl
@[simp] theorem State.withOffer_fault (s : State) (o : Offer) : (s.withOffer o).fault = s.fault := rfl
@[simp] theorem State.withOffer_cleanupFault (s : State) (o : Offer) : (s.withOffer o).cleanupFault = s.cleanupFault := rfl
@[simp] theorem State.withOffer_req (s : State) (o : Offer) : (s.withOffer o).req = s.req := rfl
@[simp] theorem State.withOffer_pay (s : State) (o : Offer) : (s.withOffer o).pay = s.pay := rfl
@[simp] theorem State.withOffer_flush (s : State) (o : Offer) : (s.withOffer o).flush = .idle := rfl
@[simp] theorem State.withOffer_base (s : State) (o : Offer) : (s.withOffer o).base = s.base := rfl
@[simp] theorem State.withOffer_extract (s : State) (o : Offer) : (s.withOffer o).extract = s.extract := rfl
@[simp] theorem State.withOffer_resetPin (s : State) (o : Offer) : (s.withOffer o).resetPin = false := rfl
@[simp] theorem State.withOffer_offers (s : State) (o : Offer) : (s.withOffer o).offers = o :: s.offers := rfl
@[simp] theorem State.withOffer_tx (s : State) (o : Offer) : (s.withOffer o).tx = s.tx := rfl
@[simp] theorem State.withOffer_txReplies (s : State) (o : Offer) : (s.withOffer o).txReplies = s.txReplies := rfl
@[simp] theorem State.withOffer_rx (s : State) (o : Offer) : (s.withOffer o).rx = s.rx := rfl
@[simp] theorem State.withOffer_wakes (s : State) (o : Offer) : (s.withOffer o).wakes = s.wakes := rfl
@[simp] theorem State.withOffer_afterReset (s : State) (o : Offer) : (s.withOffer o).afterReset = s.afterReset := rfl

/-! ### State.applyReset -/

@[simp] theorem State.applyReset_dirMask (s : State) : (s.applyReset).dirMask = 0 := rfl
@[simp] theorem State.applyReset_valSelect (s : State) : (s.applyReset).valSelect = 0 := rfl
@[simp] theorem State.applyReset_valDeselect (s : State) : (s.applyReset).valDeselect = 0 := rfl
@[simp] theorem State.applyReset_pinsValid (s : State) : (s.applyReset).pinsValid = false := rfl
@[simp] theorem State.applyReset_sckHz (s : State) : (s.applyReset).sckHz = 0 := rfl
@[simp] theorem State.applyReset_cbuf (s : State) : (s.applyReset).cbuf = [] := rfl
@[simp] theorem State.applyReset_respOwed (s : State) : (s.applyReset).respOwed = 0 := rfl
@[simp] theorem State.applyReset_rbuf (s : State) : (s.applyReset).rbuf = [] := rfl
@[simp] theorem State.applyReset_result (s : State) : (s.applyReset).result = .ok [] := rfl
@[simp] theorem State.applyReset_spuState (s : State) : (s.applyReset).spuState = .idle := rfl
@[simp] theorem State.applyReset_pollMs (s : State) : (s.applyReset).pollMs = 0 := rfl
@[simp] theorem State.applyReset_budgetMs (s : State) : (s.applyReset).budgetMs = 0 := rfl
@[simp] theorem State.applyReset_elapsedMs (s : State) : (s.applyReset).elapsedMs = 0 := rfl
@[simp] theorem State.applyReset_statusByte (s : State) : (s.applyReset).statusByte = 0 := rfl
@[simp] theorem State.applyReset_statusValid (s : State) : (s.applyReset).statusValid = false := rfl
@[simp] theorem State.applyReset_fault (s : State) : (s.applyReset).fault = .clear := rfl
@[simp] theorem State.applyReset_cleanupFault (s : State) : (s.applyReset).cleanupFault = .clear := rfl
@[simp] theorem State.applyReset_req (s : State) : (s.applyReset).req = 0 := rfl
@[simp] theorem State.applyReset_pay (s : State) : (s.applyReset).pay = [] := rfl
@[simp] theorem State.applyReset_flush (s : State) : (s.applyReset).flush = .idle := rfl
@[simp] theorem State.applyReset_base (s : State) : (s.applyReset).base = 0 := rfl
@[simp] theorem State.applyReset_extract (s : State) : (s.applyReset).extract = .nothing := rfl
@[simp] theorem State.applyReset_resetPin (s : State) : (s.applyReset).resetPin = false := rfl
@[simp] theorem State.applyReset_offers (s : State) : (s.applyReset).offers = s.offers := rfl
@[simp] theorem State.applyReset_tx (s : State) : (s.applyReset).tx = s.tx := rfl
@[simp] theorem State.applyReset_txReplies (s : State) : (s.applyReset).txReplies = s.environmentAfterReset.txReplies := rfl
@[simp] theorem State.applyReset_rx (s : State) : (s.applyReset).rx = s.environmentAfterReset.rx := rfl
@[simp] theorem State.applyReset_wakes (s : State) : (s.applyReset).wakes = s.environmentAfterReset.wakes := rfl
@[simp] theorem State.applyReset_afterReset (s : State) : (s.applyReset).afterReset = s.afterReset.tail := rfl

/-! ### State.beginFlush -/

@[simp] theorem State.beginFlush_dirMask (s : State) (x : Extract) : (s.beginFlush x).dirMask = s.dirMask := by
  unfold State.beginFlush; split <;> rfl
@[simp] theorem State.beginFlush_valSelect (s : State) (x : Extract) : (s.beginFlush x).valSelect = s.valSelect := by
  unfold State.beginFlush; split <;> rfl
@[simp] theorem State.beginFlush_valDeselect (s : State) (x : Extract) : (s.beginFlush x).valDeselect = s.valDeselect := by
  unfold State.beginFlush; split <;> rfl
@[simp] theorem State.beginFlush_pinsValid (s : State) (x : Extract) : (s.beginFlush x).pinsValid = s.pinsValid := by
  unfold State.beginFlush; split <;> rfl
@[simp] theorem State.beginFlush_sckHz (s : State) (x : Extract) : (s.beginFlush x).sckHz = s.sckHz := by
  unfold State.beginFlush; split <;> rfl
@[simp] theorem State.beginFlush_cbuf (s : State) (x : Extract) : (s.beginFlush x).cbuf = s.cbuf := by
  unfold State.beginFlush; split <;> rfl
@[simp] theorem State.beginFlush_respOwed (s : State) (x : Extract) : (s.beginFlush x).respOwed = s.respOwed := by
  unfold State.beginFlush; split <;> rfl
@[simp] theorem State.beginFlush_spuState (s : State) (x : Extract) : (s.beginFlush x).spuState = s.spuState := by
  unfold State.beginFlush; split <;> rfl
@[simp] theorem State.beginFlush_pollMs (s : State) (x : Extract) : (s.beginFlush x).pollMs = s.pollMs := by
  unfold State.beginFlush; split <;> rfl
@[simp] theorem State.beginFlush_budgetMs (s : State) (x : Extract) : (s.beginFlush x).budgetMs = s.budgetMs := by
  unfold State.beginFlush; split <;> rfl
@[simp] theorem State.beginFlush_elapsedMs (s : State) (x : Extract) : (s.beginFlush x).elapsedMs = s.elapsedMs := by
  unfold State.beginFlush; split <;> rfl
@[simp] theorem State.beginFlush_statusByte (s : State) (x : Extract) : (s.beginFlush x).statusByte = s.statusByte := by
  unfold State.beginFlush; split <;> rfl
@[simp] theorem State.beginFlush_statusValid (s : State) (x : Extract) : (s.beginFlush x).statusValid = s.statusValid := by
  unfold State.beginFlush; split <;> rfl
@[simp] theorem State.beginFlush_fault (s : State) (x : Extract) : (s.beginFlush x).fault = s.fault := by
  unfold State.beginFlush; split <;> rfl
@[simp] theorem State.beginFlush_cleanupFault (s : State) (x : Extract) : (s.beginFlush x).cleanupFault = s.cleanupFault := by
  unfold State.beginFlush; split <;> rfl
@[simp] theorem State.beginFlush_req (s : State) (x : Extract) : (s.beginFlush x).req = s.req := by
  unfold State.beginFlush; split <;> rfl
@[simp] theorem State.beginFlush_pay (s : State) (x : Extract) : (s.beginFlush x).pay = s.pay := by
  unfold State.beginFlush; split <;> rfl
@[simp] theorem State.beginFlush_base (s : State) (x : Extract) : (s.beginFlush x).base = s.base := by
  unfold State.beginFlush; split <;> rfl
@[simp] theorem State.beginFlush_resetPin (s : State) (x : Extract) : (s.beginFlush x).resetPin = s.resetPin := by
  unfold State.beginFlush; split <;> rfl
@[simp] theorem State.beginFlush_offers (s : State) (x : Extract) : (s.beginFlush x).offers = s.offers := by
  unfold State.beginFlush; split <;> rfl
@[simp] theorem State.beginFlush_txReplies (s : State) (x : Extract) : (s.beginFlush x).txReplies = s.txReplies := by
  unfold State.beginFlush; split <;> rfl
@[simp] theorem State.beginFlush_rx (s : State) (x : Extract) : (s.beginFlush x).rx = s.rx := by
  unfold State.beginFlush; split <;> rfl
@[simp] theorem State.beginFlush_wakes (s : State) (x : Extract) : (s.beginFlush x).wakes = s.wakes := by
  unfold State.beginFlush; split <;> rfl
@[simp] theorem State.beginFlush_afterReset (s : State) (x : Extract) : (s.beginFlush x).afterReset = s.afterReset := by
  unfold State.beginFlush; split <;> rfl

theorem State.beginFlush_empty (s : State) (x : Extract) (h : s.cbuf = []) :
    s.beginFlush x = { s with rbuf := [], result := .ok [] } := if_pos h

theorem State.beginFlush_sends (s : State) (x : Extract) (h : s.cbuf ≠ []) :
    s.beginFlush x = { s with tx := s.tx ++ [s.cbuf], flush := .writing, extract := x } := if_neg h

/-! ### State.abandonCall -/

@[simp] theorem State.abandonCall_offers (s : State) : s.abandonCall.offers = s.offers := by
  unfold State.abandonCall; split <;> rfl
@[simp] theorem State.abandonCall_tx (s : State) : s.abandonCall.tx = s.tx := by
  unfold State.abandonCall; split <;> rfl

/-- What abandoning the outstanding call takes from the environment. -/
theorem State.abandonCall_cases (s : State) :
    (s.call = none ∧ s.abandonCall = s) ∨
    (∃ p, s.call = some (.txWrite p) ∧ s.abandonCall = { s with txReplies := s.txReplies.tail }) ∨
    (∃ n r rest, s.call = some (.txRead n) ∧ collect n s.rx = some (r, rest) ∧ s.abandonCall = { s with rx := rest }) ∨
    (∃ n, s.call = some (.txRead n) ∧ collect n s.rx = none ∧ s.abandonCall = s) ∨
    (∃ ms, s.call = some (.sleep ms) ∧ s.abandonCall = { s with wakes := s.wakes - 1 }) := by
  unfold State.abandonCall
  split
  · next h => exact .inl ⟨h, rfl⟩
  · next p h => exact .inr (.inl ⟨p, h, rfl⟩)
  · next n h =>
    cases hc : collect n s.rx with
    | none => exact .inr (.inr (.inr (.inl ⟨n, h, hc, rfl⟩)))
    | some x => exact .inr (.inr (.inl ⟨n, x.1, x.2, h, hc, rfl⟩))
  · next ms h => exact .inr (.inr (.inr (.inr ⟨ms, h, rfl⟩)))

/-! ### The environment -/

theorem State.environmentAfterReset_given (s : State) (env : Environment) (rest : List Environment)
    (h : s.afterReset = env :: rest) : s.environmentAfterReset = env := by
  simp [State.environmentAfterReset, h]

theorem State.environmentAfterReset_goes_on (s : State) (h : s.afterReset = []) :
    s.environmentAfterReset = s.abandonCall.environment := by
  simp [State.environmentAfterReset, h]

@[simp] theorem State.applyReset_environment (s : State) : (s.applyReset).environment = s.environmentAfterReset := rfl

/-! ### Emissions depend on the pins alone -/

theorem State.txnOut_congr (s t : State) (p : Bytes) (hd : t.dirMask = s.dirMask) (hs : t.valSelect = s.valSelect)
    (hn : t.valDeselect = s.valDeselect) : t.txnOut p = s.txnOut p := by
  simp [State.txnOut, State.encSelect, State.encDeselect, hd, hs, hn]

theorem State.txnOutIn_congr (s t : State) (p : Bytes) (hd : t.dirMask = s.dirMask) (hs : t.valSelect = s.valSelect)
    (hn : t.valDeselect = s.valDeselect) : t.txnOutIn p = s.txnOutIn p := by
  simp [State.txnOutIn, State.encSelect, State.encDeselect, hd, hs, hn]

end Sys2Proof.Machine
end

