-- ==== Sys2Proof/Laws/Ops.lean ====
section
/-! SUPPORT. What each shared operation can do, said once. -/

namespace Sys2Proof.Machine

/-! ### Checks -/

theorem firstFailing_none_iff {α : Type} (cs : List (Bool × α)) :
    firstFailing cs = none ↔ ∀ c ∈ cs, c.1 = false := by
  induction cs with
  | nil => simp [firstFailing]
  | cons c cs ih =>
    obtain ⟨b, r⟩ := c
    cases b <;> simp [firstFailing, ih]

theorem firstFailing_some_mem {α : Type} {cs : List (Bool × α)} {r : α} (h : firstFailing cs = some r) :
    (true, r) ∈ cs := by
  induction cs with
  | nil => simp [firstFailing] at h
  | cons c cs ih =>
    obtain ⟨b, r'⟩ := c
    cases b <;> simp [firstFailing] at h <;> simp [*]

@[simp] theorem firstFailing_cons {α : Type} (b : Bool) (r : α) (cs : List (Bool × α)) :
    firstFailing ((b, r) :: cs) = if b then some r else firstFailing cs := rfl

@[simp] theorem firstFailing_nil {α : Type} : firstFailing ([] : List (Bool × α)) = none := rfl

/-- A request is refused by its first failing check, or its body runs (R75, R168). -/
theorem request_cases {s t : State} {checks : List Check} {body : State → State}
    (h : s.request checks body = .next t) :
    (∃ r, firstFailing checks = some r ∧ t = s.refuse r) ∨ (firstFailing checks = none ∧ t = body s) := by
  unfold State.request at h
  split at h
  · next r hr => exact .inl ⟨r, hr, by simpa using h.symm⟩
  · next hn => exact .inr ⟨hn, by simpa using h.symm⟩

theorem request_answers (s : State) (checks : List Check) (body : State → State) :
    ∃ t, s.request checks body = .next t := by
  unfold State.request
  split <;> exact ⟨_, rfl⟩

theorem request_passes {s : State} {checks : List Check} {body : State → State}
    (h : ∀ c ∈ checks, c.1 = false) : s.request checks body = .next (body s) := by
  unfold State.request
  rw [(firstFailing_none_iff checks).2 h]

theorem room_passes {s : State} {e : Bytes} {r : Nat} (hc : s.cbuf.length + e.length ≤ Config.cbufCap)
    (ho : s.respOwed + r ≤ Config.cbufCap) : (s.room e r).1 = false := by
  simp [State.room]; omega

theorem room_passes_iff (s : State) (e : Bytes) (r : Nat) :
    (s.room e r).1 = false ↔ s.cbuf.length + e.length ≤ Config.cbufCap ∧ s.respOwed + r ≤ Config.cbufCap := by
  simp [State.room]

theorem gate_passes_iff (s : State) : s.gate.1 = false ↔ s.fault.kind = none := by
  simp [State.gate, State.faulted]

theorem needPins_passes_iff (s : State) : s.needPins.1 = false ↔ s.pinsValid = true := by
  simp [State.needPins]

theorem countCheck_passes_iff (n max : Nat) : (countCheck n max).1 = false ↔ 1 ≤ n ∧ n ≤ max := by
  simp [countCheck, badCount]; omega

/-! A request as the chain of its checks (R75, R168). -/

theorem request_nil (s : State) (body : State → State) : s.request [] body = .next (body s) := rfl

theorem request_cons (s : State) (b : Bool) (r : Reason) (cs : List Check) (body : State → State) :
    s.request ((b, r) :: cs) body = if b = true then .next (s.refuse r) else s.request cs body := by
  unfold State.request
  rw [firstFailing]
  cases b <;> rfl

theorem request_gate (s : State) (cs : List Check) (body : State → State) :
    s.request (s.gate :: cs) body =
      if s.fault.kind = none then s.request cs body else .next (s.refuse .faulted) := by
  rw [State.gate, request_cons, State.faulted]
  cases s.fault.kind <;> rfl

theorem request_needPins (s : State) (cs : List Check) (body : State → State) :
    s.request (s.needPins :: cs) body =
      if s.pinsValid = true then s.request cs body else .next (s.refuse .notConfigured) := by
  rw [State.needPins, request_cons]
  cases s.pinsValid <;> rfl

/-! ### Faults -/

/-- The first-wins latches (R170). -/
theorem latchFault_cases (s : State) (kind : FaultKind) (info0 info1 : BitVec 33) :
    (s.fault.kind = none ∧ s.latchFault kind info0 info1 = { s with fault := ⟨some kind, info0, info1⟩ }) ∨
    (s.fault.kind ≠ none ∧ s.cleanupFault.kind = none ∧
      s.latchFault kind info0 info1 = { s with cleanupFault := ⟨some kind, info0, info1⟩ }) ∨
    (s.fault.kind ≠ none ∧ s.cleanupFault.kind ≠ none ∧ s.latchFault kind info0 info1 = s) := by
  unfold State.latchFault
  by_cases hf : s.fault.kind = none
  · exact .inl ⟨hf, by simp [hf]⟩
  · by_cases hc : s.cleanupFault.kind = none
    · exact .inr (.inl ⟨hf, hc, by simp [hf, hc]⟩)
    · exact .inr (.inr ⟨hf, hc, by simp [hf, hc]⟩)

/-- A fault raised leaves `FAULT` holding one (R170). -/
theorem raiseFault_latches (s : State) (kind : FaultKind) (info0 info1 : BitVec 33) :
    (s.raiseFault kind info0 info1).fault.kind ≠ none := by
  show (s.latchFault kind info0 info1).fault.kind ≠ none
  rcases latchFault_cases s kind info0 info1 with ⟨_, e⟩ | ⟨h, _, e⟩ | ⟨h, _, e⟩ <;> rw [e]
  · simp
  · exact h
  · exact h

/-! ### The read side -/

/-- A reply of bytes to `TxRead(n)` is `n` bytes, taken from the front (R55). -/
theorem collect_bytes {n : Nat} {evs rest : List RxEvent} {r : Bytes} (h : collect n evs = some (.bytes r, rest)) :
    r.length = n ∧ evs = r.map .byte ++ rest := by
  induction n generalizing evs r with
  | zero =>
    simp [collect] at h
    obtain ⟨rfl, rfl⟩ := h
    simp
  | succ n ih =>
    cases evs with
    | nil => simp [collect] at h
    | cons e evs =>
      cases e with
      | byte b =>
        simp only [collect] at h
        split at h
        · next r' rest' hr =>
          simp at h
          obtain ⟨rfl, rfl⟩ := h
          obtain ⟨hl, he⟩ := ih hr
          simp [hl, he]
        · next other hne => exact absurd h (hne r rest)
      | disconnected => simp [collect] at h
      | driverError c => simp [collect] at h

/-- Bytes enough are a reply of bytes (R55). -/
theorem collect_of_bytes (r : Bytes) (rest : List RxEvent) :
    collect r.length (r.map .byte ++ rest) = some (.bytes r, rest) := by
  induction r with
  | nil => simp [collect]
  | cons b r ih => simp [collect, ih]

/-- Too few bytes and no error are no reply (R55, R176). -/
theorem collect_short {n : Nat} {r : Bytes} (h : r.length < n) : collect n (r.map .byte) = none := by
  induction r generalizing n with
  | nil =>
    cases n with
    | zero => simp at h
    | succ n => rfl
  | cons b r ih =>
    cases n with
    | zero => simp at h
    | succ n => simp [collect, ih (Nat.lt_of_succ_lt_succ h)]

/-- `n` events are always enough for a reply to `TxRead(n)`, and no more than `n` are taken. -/
theorem collect_replies {n : Nat} {evs : List RxEvent} (h : n ≤ evs.length) :
    ∃ reply rest, collect n evs = some (reply, rest) ∧ evs.length ≤ rest.length + n := by
  induction n generalizing evs with
  | zero => exact ⟨.bytes [], evs, by simp [collect], by simp⟩
  | succ n ih =>
    cases evs with
    | nil => simp at h
    | cons e evs =>
      cases e with
      | byte b =>
        obtain ⟨reply, rest, hc, hl⟩ := ih (Nat.le_of_succ_le_succ h)
        cases reply with
        | bytes r => exact ⟨.bytes (b :: r), rest, by simp [collect, hc], by simp; omega⟩
        | disconnected => exact ⟨.disconnected, rest, by simp [collect, hc], by simp; omega⟩
        | driverError c => exact ⟨.driverError c, rest, by simp [collect, hc], by simp; omega⟩
      | disconnected => exact ⟨.disconnected, evs, by simp [collect], by simp⟩
      | driverError c => exact ⟨.driverError c, evs, by simp [collect], by simp⟩

/-! ### Replies -/

theorem awaitWrite_cases (s : State) (onOk : State → State) :
    (s.txReplies = [] ∧ s.awaitWrite onOk = s) ∨
    (∃ reply rest kind info0 info1, s.txReplies = reply :: rest ∧
      reply.error s.cbuf.length = some (kind, info0, info1) ∧ kind ≠ .waitTimeout ∧
      s.awaitWrite onOk = ({ s with txReplies := rest }).raiseFault kind info0 info1) ∨
    (∃ rest, s.txReplies = .ok :: rest ∧ s.awaitWrite onOk = onOk { s with txReplies := rest }) := by
  unfold State.awaitWrite
  cases h : s.txReplies with
  | nil => exact .inl ⟨rfl, rfl⟩
  | cons reply rest =>
    cases reply with
    | ok => exact .inr (.inr ⟨rest, rfl, rfl⟩)
    | shortWrite a => exact .inr (.inl ⟨_, rest, _, _, _, rfl, rfl, by decide, rfl⟩)
    | disconnected => exact .inr (.inl ⟨_, rest, _, _, _, rfl, rfl, by decide, rfl⟩)
    | driverError c => exact .inr (.inl ⟨_, rest, _, _, _, rfl, rfl, by decide, rfl⟩)

theorem awaitRead_cases (s : State) (onBytes : State → Bytes → State) :
    (collect s.respOwed s.rx = none ∧ s.awaitRead onBytes = s) ∨
    (∃ rest kind info1, kind ≠ .waitTimeout ∧
      s.awaitRead onBytes = ({ s with rx := rest }).raiseFault kind 1 info1) ∨
    (∃ r rest, collect s.respOwed s.rx = some (.bytes r, rest) ∧ s.awaitRead onBytes = onBytes { s with rx := rest } r) := by
  unfold State.awaitRead
  split
  · next h => exact .inl ⟨h, rfl⟩
  · next r rest h => exact .inr (.inr ⟨r, rest, h, rfl⟩)
  · next rest h => exact .inr (.inl ⟨rest, _, _, by decide, rfl⟩)
  · next c rest h => exact .inr (.inl ⟨rest, _, _, by decide, rfl⟩)

/-- An `Ok` waiting is taken (R54). -/
theorem awaitWrite_ok {s : State} {onOk : State → State} {rest : List TxReply} (h : s.txReplies = .ok :: rest) :
    s.awaitWrite onOk = onOk { s with txReplies := rest } := by
  simp [State.awaitWrite, h, TxReply.error]

/-- The owed bytes waiting are taken (R55). -/
theorem awaitRead_ok {s : State} {onBytes : State → Bytes → State} {r : Bytes} {rest : List RxEvent}
    (hl : r.length = s.respOwed) (h : s.rx = r.map .byte ++ rest) :
    s.awaitRead onBytes = onBytes { s with rx := rest } r := by
  unfold State.awaitRead
  rw [h, ← hl, collect_of_bytes]

/-! ### The status poll -/

theorem busyTest_cases (s : State) :
    (busyFlag s.statusByte = true ∧ s.busyTest = { s with spuState := .sleep }) ∨
    (busyFlag s.statusByte = false ∧ s.busyTest = { s with spuState := .idle, result := .ok [] }) := by
  unfold State.busyTest
  cases h : busyFlag s.statusByte <;> simp

theorem onSleep_cases (s : State) :
    (s.wakes = 0 ∧ s.onSleep = s) ∨ (∃ k, s.wakes = k + 1 ∧ s.onSleep = ({ s with wakes := k }).afterSleep) := by
  unfold State.onSleep
  cases h : s.wakes with
  | zero => exact .inl ⟨rfl, rfl⟩
  | succ k => exact .inr ⟨k, rfl, rfl⟩

end Sys2Proof.Machine
end

