-- ==== Sys2Proof/Laws/Exec.lean ====
section
/-! SUPPORT. What any instruction can do, said once. -/

namespace Sys2Proof.Machine

theorem txnOut_ne_nil (s : State) (p : Bytes) : s.txnOut p ≠ [] := by simp [State.txnOut, State.encSelect, encSetLow]
theorem txnOutIn_ne_nil (s : State) (p : Bytes) : s.txnOutIn p ≠ [] := by simp [State.txnOutIn, State.encSelect, encSetLow]
theorem programBytes_ne_nil (s : State) (a : BitVec 24) (p : Bytes) : s.programBytes a p ≠ [] := by
  simp [State.programBytes, txnOut_ne_nil]

/-- What an instruction can do: it is refused; it writes its configuration; it appends its encoding; it starts a flush or an
immediate request; it starts a wait. -/
theorem exec_cases {i : Instr} {s t : State} (h : exec i s = .next t) :
    (∃ r, t = s.refuse r) ∨
    (∃ dir sel desel, i = .cfgPins dir sel desel ∧ s.fault.kind = none ∧ pinsLegal dir sel desel = true ∧
      t = s.setPins dir sel desel) ∨
    (∃ hz, i = .cfgClock hz ∧ s.fault.kind = none ∧ hz ≠ 0 ∧ t = s.setClock hz) ∨
    (∃ e r, s.fault.kind = none ∧ e ≠ [] ∧ s.cbuf.length + e.length ≤ Config.cbufCap ∧ s.respOwed + r ≤ Config.cbufCap ∧
      t = s.defer e r) ∨
    (i = .flush ∧ s.fault.kind = none ∧ t = s.beginFlush .nothing) ∨
    (∃ e r x, (s.fault.kind = none ∨ i = .powerDown ∧ e = s.opcodeBytes Config.spiPowerDown ∧ r = 0 ∧ x = .nothing) ∧
      s.pinsValid = true ∧ e ≠ [] ∧ s.cbuf.length + e.length ≤ Config.cbufCap ∧ s.respOwed + r ≤ Config.cbufCap ∧
      t = s.immediate e r x) ∨
    (∃ p b, i = .waitReady p b ∧ s.fault.kind = none ∧ s.pinsValid = true ∧ p ≠ 0 ∧
      s.cbuf.length + s.pollBytes.length ≤ Config.cbufCap ∧ s.respOwed + 2 ≤ Config.cbufCap ∧ t = s.startWait p b) := by
  have key : ∀ {checks : List Check} {body : State → State}, s.request checks body = .next t →
      (∃ r, t = s.refuse r) ∨ ((∀ c ∈ checks, c.1 = false) ∧ t = body s) := fun h => by
    rcases request_cases h with ⟨r, _, h⟩ | ⟨h, ht⟩
    · exact .inl ⟨r, h⟩
    · exact .inr ⟨(firstFailing_none_iff _).1 h, ht⟩
  cases i <;> simp only [exec, execReserved12, execReserved14, execReserved18, State.illegalRequest, Host.Outcome.next.injEq,
    execCfgPins, execCfgClock, execCsSelect, execCsDeselect, execDataOut, execDataOutIn, execWaitMask, execBytes, execFlush,
    execIdentify, execPowerUp, execPowerDown, execWriteEnable, execBulkErase, execSectorErase, execProgramPage,
    execProgramPagePace, execRead, execWaitReady, execMpsseSetLow, execMpsseOut, execMpsseOutIn, execMpsseWait,
    execSpiIdentify, execSpiPowerUp, execSpiPowerDown, execSpiWriteEnable, execSpiBulkErase, execSpiSectorErase64k,
    execSpiPageProgram, execSpiRead, execSpiReadStatus, State.fireAndForget, State.emitCommand, State.emitItem] at h
  case reserved12 | reserved14 | reserved18 => exact .inl ⟨_, h.symm⟩
  all_goals
    obtain h | ⟨hc, ht⟩ := key h
    · exact .inl h
    simp only [State.programChecks, State.readChecks, List.cons_append, List.nil_append, List.forall_mem_cons,
      gate_passes_iff, needPins_passes_iff, countCheck_passes_iff, room_passes_iff] at hc
  case cfgPins => exact .inr (.inl ⟨_, _, _, rfl, hc.1, by simpa using hc.2.1, ht⟩)
  case cfgClock => exact .inr (.inr (.inl ⟨_, rfl, hc.1, by simpa using hc.2.1, ht⟩))
  case flush => exact .inr (.inr (.inr (.inr (.inl ⟨rfl, hc.1, ht⟩))))
  case waitReady => exact .inr (.inr (.inr (.inr (.inr (.inr ⟨_, _, rfl, hc.1, hc.2.1, by simpa using hc.2.2.1, hc.2.2.2.1.1, hc.2.2.2.1.2, ht⟩)))))
  case csSelect | csDeselect =>
    exact .inr (.inr (.inr (.inl ⟨_, _, hc.1, by simp [State.encSelect, State.encDeselect, encSetLow], hc.2.2.1.1, hc.2.2.1.2, ht⟩)))
  case dataOut | dataOutIn | waitMask | mpsseOut | mpsseOutIn =>
    exact .inr (.inr (.inr (.inl ⟨_, _, hc.1, by simp [encOut, encOutIn, encWait, encWaitField], hc.2.2.1.1, hc.2.2.1.2, ht⟩)))
  case bytes =>
    exact .inr (.inr (.inr (.inl ⟨_, _, hc.1, by rintro rfl; simp at hc, hc.2.2.1.1, hc.2.2.1.2, ht⟩)))
  case mpsseSetLow | mpsseWait =>
    exact .inr (.inr (.inr (.inl ⟨_, _, hc.1, by simp [encSetLow, encWaitField], hc.2.1.1, hc.2.1.2, ht⟩)))
  case spiIdentify | spiPowerUp | spiPowerDown | spiWriteEnable | spiBulkErase | spiSectorErase64k | spiReadStatus =>
    exact .inr (.inr (.inr (.inl ⟨_, _, hc.1, by first | exact txnOut_ne_nil _ _ | exact txnOutIn_ne_nil _ _, hc.2.2.1.1, hc.2.2.1.2, ht⟩)))
  case spiPageProgram | spiRead =>
    exact .inr (.inr (.inr (.inl ⟨_, _, hc.1, by first | exact txnOut_ne_nil _ _ | exact txnOutIn_ne_nil _ _, hc.2.2.2.2.1.1, hc.2.2.2.2.1.2, ht⟩)))
  case programPage =>
    exact .inr (.inr (.inr (.inl ⟨_, _, hc.1, programBytes_ne_nil _ _ _, hc.2.2.2.2.1.1, hc.2.2.2.2.1.2, ht⟩)))
  case programPagePace =>
    exact .inr (.inr (.inr (.inl ⟨_, _, hc.1, by simp [State.programPaceBytes, programBytes_ne_nil], hc.2.2.2.2.2.1.1, hc.2.2.2.2.2.1.2, ht⟩)))
  case powerDown =>
    exact .inr (.inr (.inr (.inr (.inr (.inl ⟨_, _, _, .inr ⟨rfl, rfl, rfl, rfl⟩, hc.1, txnOut_ne_nil _ _, hc.2.1.1, hc.2.1.2, ht⟩)))))
  case read =>
    exact .inr (.inr (.inr (.inr (.inr (.inl ⟨_, _, _, .inl hc.1, hc.2.1, txnOutIn_ne_nil _ _, hc.2.2.2.2.1.1, hc.2.2.2.2.1.2, ht⟩)))))
  all_goals
    exact .inr (.inr (.inr (.inr (.inr (.inl ⟨_, _, _, .inl hc.1, hc.2.1, by first | exact txnOut_ne_nil _ _ | exact txnOutIn_ne_nil _ _, hc.2.2.1.1, hc.2.2.1.2, ht⟩)))))

/-- Each meaning is the common order of R75 over its own checks and body; a reserved selector is refused. -/
theorem exec_shape (i : Instr) (s : State) :
    (∃ checks body, exec i s = s.request checks body) ∨ exec i s = .next (s.refuse .illegalRequest) := by
  cases i <;> simp only [exec, execReserved12, execReserved14, execReserved18, State.illegalRequest, 
    execCfgPins, execCfgClock, execCsSelect, execCsDeselect, execDataOut, execDataOutIn, execWaitMask, execBytes, execFlush,
    execIdentify, execPowerUp, execPowerDown, execWriteEnable, execBulkErase, execSectorErase, execProgramPage,
    execProgramPagePace, execRead, execWaitReady, execMpsseSetLow, execMpsseOut, execMpsseOutIn, execMpsseWait,
    execSpiIdentify, execSpiPowerUp, execSpiPowerDown, execSpiWriteEnable, execSpiBulkErase, execSpiSectorErase64k,
    execSpiPageProgram, execSpiRead, execSpiReadStatus, State.fireAndForget, State.emitCommand, State.emitItem] <;>
    first | exact .inr trivial | exact .inl ⟨_, _, rfl⟩

theorem exec_answers (i : Instr) (s : State) : ∃ t, exec i s = .next t := by
  obtain ⟨c, b, h⟩ | h := exec_shape i s
  · rw [h]; exact request_answers ..
  · exact ⟨_, h⟩

end Sys2Proof.Machine
end

