-- ==== Sys2Proof/Laws/PerInstr.lean ====
section
/-! SUPPORT. Per instruction: its encoding is of its row of spec/opcode_table.json. A request's word has the row's fixed
bits; an MPSSE item opens with its command byte, an SPI command with its opcode. -/

namespace Sys2Proof.Laws

/-- A row's mask and match, as the table writes them. -/
inductive TableRow where
  | word (mask fixed : BitVec 128)
  | firstByte (b : Byte)

/-- The row of each instruction. -/
def tableRow : Instr → TableRow
  | .cfgPins _ _ _ => .word 0xFFFFFFFFFF000000FFFFFFFFFFFFFFFF 0x00000000000000000000000000000000
  | .cfgClock _ => .word 0xFFFFFFFF00000000FFFFFFFFFFFFFFFF 0x00000000000000000000000000000001
  | .csSelect => .word 0xFFFFFFFFFFFFFFFFFFFFFFFFFFFFFFFF 0x00000000000000000000000000000002
  | .csDeselect => .word 0xFFFFFFFFFFFFFFFFFFFFFFFFFFFFFFFF 0x00000000000000000000000000000003
  | .dataOut _ => .word 0xFFFFFFFFFFFFFFFFFFFE0000FFFFFFFF 0x00000000000000000000000000000004
  | .dataOutIn _ => .word 0xFFFFFFFFFFFFFFFFFFFE0000FFFFFFFF 0x00000000000000000000000000000005
  | .waitMask _ => .word 0xFFFFFFFFFFFFFFFFFFFE0000FFFFFFFF 0x00000000000000000000000000000006
  | .bytes _ => .word 0xFFFFFFFFFFFFFFFFFFFE0000FFFFFFFF 0x00000000000000000000000000000007
  | .flush => .word 0xFFFFFFFFFFFFFFFFFFFFFFFFFFFFFFFF 0x00000000000000000000000000000008
  | .identify => .word 0xFFFFFFFFFFFFFFFFFFFFFFFFFFFFFFFF 0x00000000000000000000000000000009
  | .powerUp => .word 0xFFFFFFFFFFFFFFFFFFFFFFFFFFFFFFFF 0x0000000000000000000000000000000A
  | .powerDown => .word 0xFFFFFFFFFFFFFFFFFFFFFFFFFFFFFFFF 0x0000000000000000000000000000000B
  | .writeEnable => .word 0xFFFFFFFFFFFFFFFFFFFFFFFFFFFFFFFF 0x0000000000000000000000000000000C
  | .bulkErase => .word 0xFFFFFFFFFFFFFFFFFFFFFFFFFFFFFFFF 0x0000000000000000000000000000000D
  | .sectorErase _ => .word 0xFFFFFFFFFFFFFFFFFFFFFFFF000000FF 0x0000000000000000000000000000000E
  | .programPage _ _ => .word 0xFFFFFFFFFFFFFFFFFFFE0000000000FF 0x0000000000000000000000000000000F
  | .programPagePace _ _ _ => .word 0xFFFFFFFF00000000FFFE0000000000FF 0x0000000000000000000000000000002F
  | .read _ _ => .word 0xFFFFFFFFFFFFFFFFFFFE0000000000FF 0x00000000000000000000000000000010
  | .waitReady _ _ => .word 0x0000000000000000FFFFFFFFFFFFFFFF 0x00000000000000000000000000000011
  | .reserved12 _ _ _ => .word 0x0000000000000000000000000000001E 0x00000000000000000000000000000012
  | .reserved14 _ _ _ => .word 0x0000000000000000000000000000001C 0x00000000000000000000000000000014
  | .reserved18 _ _ _ => .word 0x00000000000000000000000000000018 0x00000000000000000000000000000018
  | .mpsseSetLow _ _ => .firstByte Config.opcSetLow
  | .mpsseOut _ => .firstByte Config.opcOut
  | .mpsseOutIn _ => .firstByte Config.opcOutIn
  | .mpsseWait _ => .firstByte Config.opcWait
  | .spiIdentify _ _ _ => .firstByte 0x9F
  | .spiPowerUp => .firstByte 0xAB
  | .spiPowerDown => .firstByte 0xB9
  | .spiWriteEnable => .firstByte 0x06
  | .spiBulkErase => .firstByte 0xC7
  | .spiSectorErase64k _ => .firstByte 0xD8
  | .spiPageProgram _ _ => .firstByte 0x02
  | .spiRead _ _ => .firstByte 0x03
  | .spiReadStatus _ => .firstByte 0x05

/-- The encoding of `i` is of `i`'s row. -/
def EncodesTableRow.Statement (i : Instr) : Prop :=
  match encode i, tableRow i with
  | .request w _, .word mask fixed => w &&& mask = fixed
  | .mpsse bs, .firstByte b => bs.head? = some b
  | .spi bs, .firstByte b => bs.head? = some b
  | _, _ => False

theorem EncodesTableRow.cfgPins (dir sel desel : Byte) : EncodesTableRow.Statement (.cfgPins dir sel desel) := by
  show Req.word _ _ _ _ _ _ &&& 0xFFFFFFFFFF000000FFFFFFFFFFFFFFFF = 0x00000000000000000000000000000000
  rw [show (0xFFFFFFFFFF000000FFFFFFFFFFFFFFFF : BitVec 128) = Req.mask 0x1F 0x1 0x3 0xFFFFFF 0x1FFFF 0x7FFF 0xFF000000 0xFFFFFFFF by decide,
    Req.word_and_mask]
  simp [Req.pins_and_top]
  decide

theorem EncodesTableRow.cfgClock (hz : BitVec 32) : EncodesTableRow.Statement (.cfgClock hz) := by
  show Req.word _ _ _ _ _ _ &&& 0xFFFFFFFF00000000FFFFFFFFFFFFFFFF = 0x00000000000000000000000000000001
  rw [show (0xFFFFFFFF00000000FFFFFFFFFFFFFFFF : BitVec 128) = Req.mask 0x1F 0x1 0x3 0xFFFFFF 0x1FFFF 0x7FFF 0x0 0xFFFFFFFF by decide,
    Req.word_and_mask]
  simp
  decide

theorem EncodesTableRow.csSelect : EncodesTableRow.Statement (.csSelect) := by
  show Req.word _ _ _ _ _ _ &&& 0xFFFFFFFFFFFFFFFFFFFFFFFFFFFFFFFF = 0x00000000000000000000000000000002
  rw [show (0xFFFFFFFFFFFFFFFFFFFFFFFFFFFFFFFF : BitVec 128) = Req.mask 0x1F 0x1 0x3 0xFFFFFF 0x1FFFF 0x7FFF 0xFFFFFFFF 0xFFFFFFFF by decide,
    Req.word_and_mask]
  simp
  decide

theorem EncodesTableRow.csDeselect : EncodesTableRow.Statement (.csDeselect) := by
  show Req.word _ _ _ _ _ _ &&& 0xFFFFFFFFFFFFFFFFFFFFFFFFFFFFFFFF = 0x00000000000000000000000000000003
  rw [show (0xFFFFFFFFFFFFFFFFFFFFFFFFFFFFFFFF : BitVec 128) = Req.mask 0x1F 0x1 0x3 0xFFFFFF 0x1FFFF 0x7FFF 0xFFFFFFFF 0xFFFFFFFF by decide,
    Req.word_and_mask]
  simp
  decide

theorem EncodesTableRow.dataOut (n : BitVec 17) : EncodesTableRow.Statement (.dataOut n) := by
  show Req.word _ _ _ _ _ _ &&& 0xFFFFFFFFFFFFFFFFFFFE0000FFFFFFFF = 0x00000000000000000000000000000004
  rw [show (0xFFFFFFFFFFFFFFFFFFFE0000FFFFFFFF : BitVec 128) = Req.mask 0x1F 0x1 0x3 0xFFFFFF 0x0 0x7FFF 0xFFFFFFFF 0xFFFFFFFF by decide,
    Req.word_and_mask]
  simp
  decide

theorem EncodesTableRow.dataOutIn (n : BitVec 17) : EncodesTableRow.Statement (.dataOutIn n) := by
  show Req.word _ _ _ _ _ _ &&& 0xFFFFFFFFFFFFFFFFFFFE0000FFFFFFFF = 0x00000000000000000000000000000005
  rw [show (0xFFFFFFFFFFFFFFFFFFFE0000FFFFFFFF : BitVec 128) = Req.mask 0x1F 0x1 0x3 0xFFFFFF 0x0 0x7FFF 0xFFFFFFFF 0xFFFFFFFF by decide,
    Req.word_and_mask]
  simp
  decide

theorem EncodesTableRow.waitMask (c : BitVec 17) : EncodesTableRow.Statement (.waitMask c) := by
  show Req.word _ _ _ _ _ _ &&& 0xFFFFFFFFFFFFFFFFFFFE0000FFFFFFFF = 0x00000000000000000000000000000006
  rw [show (0xFFFFFFFFFFFFFFFFFFFE0000FFFFFFFF : BitVec 128) = Req.mask 0x1F 0x1 0x3 0xFFFFFF 0x0 0x7FFF 0xFFFFFFFF 0xFFFFFFFF by decide,
    Req.word_and_mask]
  simp
  decide

theorem EncodesTableRow.bytes (pay : Bytes) : EncodesTableRow.Statement (.bytes pay) := by
  show Req.word _ _ _ _ _ _ &&& 0xFFFFFFFFFFFFFFFFFFFE0000FFFFFFFF = 0x00000000000000000000000000000007
  rw [show (0xFFFFFFFFFFFFFFFFFFFE0000FFFFFFFF : BitVec 128) = Req.mask 0x1F 0x1 0x3 0xFFFFFF 0x0 0x7FFF 0xFFFFFFFF 0xFFFFFFFF by decide,
    Req.word_and_mask]
  simp
  decide

theorem EncodesTableRow.flush : EncodesTableRow.Statement (.flush) := by
  show Req.word _ _ _ _ _ _ &&& 0xFFFFFFFFFFFFFFFFFFFFFFFFFFFFFFFF = 0x00000000000000000000000000000008
  rw [show (0xFFFFFFFFFFFFFFFFFFFFFFFFFFFFFFFF : BitVec 128) = Req.mask 0x1F 0x1 0x3 0xFFFFFF 0x1FFFF 0x7FFF 0xFFFFFFFF 0xFFFFFFFF by decide,
    Req.word_and_mask]
  simp
  decide

theorem EncodesTableRow.identify : EncodesTableRow.Statement (.identify) := by
  show Req.word _ _ _ _ _ _ &&& 0xFFFFFFFFFFFFFFFFFFFFFFFFFFFFFFFF = 0x00000000000000000000000000000009
  rw [show (0xFFFFFFFFFFFFFFFFFFFFFFFFFFFFFFFF : BitVec 128) = Req.mask 0x1F 0x1 0x3 0xFFFFFF 0x1FFFF 0x7FFF 0xFFFFFFFF 0xFFFFFFFF by decide,
    Req.word_and_mask]
  simp
  decide

theorem EncodesTableRow.powerUp : EncodesTableRow.Statement (.powerUp) := by
  show Req.word _ _ _ _ _ _ &&& 0xFFFFFFFFFFFFFFFFFFFFFFFFFFFFFFFF = 0x0000000000000000000000000000000A
  rw [show (0xFFFFFFFFFFFFFFFFFFFFFFFFFFFFFFFF : BitVec 128) = Req.mask 0x1F 0x1 0x3 0xFFFFFF 0x1FFFF 0x7FFF 0xFFFFFFFF 0xFFFFFFFF by decide,
    Req.word_and_mask]
  simp
  decide

theorem EncodesTableRow.powerDown : EncodesTableRow.Statement (.powerDown) := by
  show Req.word _ _ _ _ _ _ &&& 0xFFFFFFFFFFFFFFFFFFFFFFFFFFFFFFFF = 0x0000000000000000000000000000000B
  rw [show (0xFFFFFFFFFFFFFFFFFFFFFFFFFFFFFFFF : BitVec 128) = Req.mask 0x1F 0x1 0x3 0xFFFFFF 0x1FFFF 0x7FFF 0xFFFFFFFF 0xFFFFFFFF by decide,
    Req.word_and_mask]
  simp
  decide

theorem EncodesTableRow.writeEnable : EncodesTableRow.Statement (.writeEnable) := by
  show Req.word _ _ _ _ _ _ &&& 0xFFFFFFFFFFFFFFFFFFFFFFFFFFFFFFFF = 0x0000000000000000000000000000000C
  rw [show (0xFFFFFFFFFFFFFFFFFFFFFFFFFFFFFFFF : BitVec 128) = Req.mask 0x1F 0x1 0x3 0xFFFFFF 0x1FFFF 0x7FFF 0xFFFFFFFF 0xFFFFFFFF by decide,
    Req.word_and_mask]
  simp
  decide

theorem EncodesTableRow.bulkErase : EncodesTableRow.Statement (.bulkErase) := by
  show Req.word _ _ _ _ _ _ &&& 0xFFFFFFFFFFFFFFFFFFFFFFFFFFFFFFFF = 0x0000000000000000000000000000000D
  rw [show (0xFFFFFFFFFFFFFFFFFFFFFFFFFFFFFFFF : BitVec 128) = Req.mask 0x1F 0x1 0x3 0xFFFFFF 0x1FFFF 0x7FFF 0xFFFFFFFF 0xFFFFFFFF by decide,
    Req.word_and_mask]
  simp
  decide

theorem EncodesTableRow.sectorErase (addr : BitVec 24) : EncodesTableRow.Statement (.sectorErase addr) := by
  show Req.word _ _ _ _ _ _ &&& 0xFFFFFFFFFFFFFFFFFFFFFFFF000000FF = 0x0000000000000000000000000000000E
  rw [show (0xFFFFFFFFFFFFFFFFFFFFFFFF000000FF : BitVec 128) = Req.mask 0x1F 0x1 0x3 0x0 0x1FFFF 0x7FFF 0xFFFFFFFF 0xFFFFFFFF by decide,
    Req.word_and_mask]
  simp
  decide

theorem EncodesTableRow.programPage (addr : BitVec 24) (pay : Bytes) : EncodesTableRow.Statement (.programPage addr pay) := by
  show Req.word _ _ _ _ _ _ &&& 0xFFFFFFFFFFFFFFFFFFFE0000000000FF = 0x0000000000000000000000000000000F
  rw [show (0xFFFFFFFFFFFFFFFFFFFE0000000000FF : BitVec 128) = Req.mask 0x1F 0x1 0x3 0x0 0x0 0x7FFF 0xFFFFFFFF 0xFFFFFFFF by decide,
    Req.word_and_mask]
  simp
  decide

theorem EncodesTableRow.programPagePace (addr : BitVec 24) (pay : Bytes) (budgetUs : BitVec 32) : EncodesTableRow.Statement (.programPagePace addr pay budgetUs) := by
  show Req.word _ _ _ _ _ _ &&& 0xFFFFFFFF00000000FFFE0000000000FF = 0x0000000000000000000000000000002F
  rw [show (0xFFFFFFFF00000000FFFE0000000000FF : BitVec 128) = Req.mask 0x1F 0x1 0x3 0x0 0x0 0x7FFF 0x0 0xFFFFFFFF by decide,
    Req.word_and_mask]
  simp
  decide

theorem EncodesTableRow.read (addr : BitVec 24) (n : BitVec 17) : EncodesTableRow.Statement (.read addr n) := by
  show Req.word _ _ _ _ _ _ &&& 0xFFFFFFFFFFFFFFFFFFFE0000000000FF = 0x00000000000000000000000000000010
  rw [show (0xFFFFFFFFFFFFFFFFFFFE0000000000FF : BitVec 128) = Req.mask 0x1F 0x1 0x3 0x0 0x0 0x7FFF 0xFFFFFFFF 0xFFFFFFFF by decide,
    Req.word_and_mask]
  simp
  decide

theorem EncodesTableRow.waitReady (pollMs budgetMs : BitVec 32) : EncodesTableRow.Statement (.waitReady pollMs budgetMs) := by
  show Req.word _ _ _ _ _ _ &&& 0x0000000000000000FFFFFFFFFFFFFFFF = 0x00000000000000000000000000000011
  rw [show (0x0000000000000000FFFFFFFFFFFFFFFF : BitVec 128) = Req.mask 0x1F 0x1 0x3 0xFFFFFF 0x1FFFF 0x7FFF 0x0 0x0 by decide,
    Req.word_and_mask]
  simp
  decide

theorem EncodesTableRow.reserved12 (sel : BitVec 1) (rest : BitVec 123) (pay : Bytes) : EncodesTableRow.Statement (.reserved12 sel rest pay) := by
  show (rest ++ 0b1001#4 ++ sel : BitVec 128) &&& 0x1e#128 = 0x12#128
  apply BitVec.eq_of_getLsbD_eq
  intro i hi
  rw [BitVec.getLsbD_and, Req.getLsbD_reserved12]
  by_cases h : i < 5
  · interval_cases i <;> simp
  · have hm : (0x1e#128).getLsbD i = false := by
      interval_cases i <;> first | omega | decide
    have hf : (0x12#128).getLsbD i = false := by
      interval_cases i <;> first | omega | decide
    simp only [hm, hf, Bool.and_false]

theorem EncodesTableRow.reserved14 (sel : BitVec 2) (rest : BitVec 123) (pay : Bytes) : EncodesTableRow.Statement (.reserved14 sel rest pay) := by
  show (rest ++ 0b101#3 ++ sel : BitVec 128) &&& 0x1c#128 = 0x14#128
  apply BitVec.eq_of_getLsbD_eq
  intro i hi
  rw [BitVec.getLsbD_and, Req.getLsbD_reserved14]
  by_cases h : i < 5
  · interval_cases i <;> simp
  · have hm : (0x1c#128).getLsbD i = false := by
      interval_cases i <;> first | omega | decide
    have hf : (0x14#128).getLsbD i = false := by
      interval_cases i <;> first | omega | decide
    simp only [hm, hf, Bool.and_false]

theorem EncodesTableRow.reserved18 (sel : BitVec 3) (rest : BitVec 123) (pay : Bytes) : EncodesTableRow.Statement (.reserved18 sel rest pay) := by
  show (rest ++ 0b11#2 ++ sel : BitVec 128) &&& 0x18#128 = 0x18#128
  apply BitVec.eq_of_getLsbD_eq
  intro i hi
  rw [BitVec.getLsbD_and, Req.getLsbD_reserved18]
  by_cases h : i < 5
  · interval_cases i <;> simp
  · have hm : (0x18#128).getLsbD i = false := by
      interval_cases i <;> first | omega | decide
    have hf : (0x18#128).getLsbD i = false := by
      interval_cases i <;> first | omega | decide
    simp only [hm, hf, Bool.and_false]

theorem EncodesTableRow.mpsseSetLow (value dir : Byte) : EncodesTableRow.Statement (.mpsseSetLow value dir) := rfl

theorem EncodesTableRow.mpsseOut (payload : Bytes) : EncodesTableRow.Statement (.mpsseOut payload) := rfl

theorem EncodesTableRow.mpsseOutIn (payload : Bytes) : EncodesTableRow.Statement (.mpsseOutIn payload) := rfl

theorem EncodesTableRow.mpsseWait (countField : BitVec 16) : EncodesTableRow.Statement (.mpsseWait countField) := rfl

theorem EncodesTableRow.spiIdentify (d1 d2 d3 : Byte) : EncodesTableRow.Statement (.spiIdentify d1 d2 d3) := rfl

theorem EncodesTableRow.spiPowerUp : EncodesTableRow.Statement (.spiPowerUp) := rfl

theorem EncodesTableRow.spiPowerDown : EncodesTableRow.Statement (.spiPowerDown) := rfl

theorem EncodesTableRow.spiWriteEnable : EncodesTableRow.Statement (.spiWriteEnable) := rfl

theorem EncodesTableRow.spiBulkErase : EncodesTableRow.Statement (.spiBulkErase) := rfl

theorem EncodesTableRow.spiSectorErase64k (addr : BitVec 24) : EncodesTableRow.Statement (.spiSectorErase64k addr) := rfl

theorem EncodesTableRow.spiPageProgram (addr : BitVec 24) (data : Bytes) : EncodesTableRow.Statement (.spiPageProgram addr data) := rfl

theorem EncodesTableRow.spiRead (addr : BitVec 24) (n : BitVec 17) : EncodesTableRow.Statement (.spiRead addr n) := rfl

theorem EncodesTableRow.spiReadStatus (d : Byte) : EncodesTableRow.Statement (.spiReadStatus d) := rfl

end Sys2Proof.Laws
end

