-- ==== Sys2Proof/Laws/Step.lean ====
section
/-! SUPPORT. What a step can do, said once. -/

namespace Sys2Proof.Machine

/-- The cases of a step: reset, one of the five replies, nothing to do, a request run, a request found illegal. -/
theorem step_cases {s t : State} (h : step s = .next t) :
    (s.resetPin = true ∧ t = s.applyReset) ∨
    (s.resetPin = false ∧ s.spuState = .pollTx ∧ t = s.onPollWrite) ∨
    (s.resetPin = false ∧ s.spuState = .pollRx ∧ t = s.onPollRead) ∨
    (s.resetPin = false ∧ s.spuState = .sleep ∧ t = s.onSleep) ∨
    (s.resetPin = false ∧ s.spuState = .idle ∧ s.flush = .writing ∧ t = s.onFlushWrite) ∨
    (s.resetPin = false ∧ s.spuState = .idle ∧ s.flush = .reading ∧ t = s.onFlushRead) ∨
    (s.resetPin = false ∧ s.spuState = .idle ∧ s.flush = .idle ∧ s.offers = [] ∧ t = s) ∨
    (s.resetPin = false ∧ s.spuState = .idle ∧ s.flush = .idle ∧
      ∃ o rest i, s.offers = o :: rest ∧ decode o = .ok i ∧ exec i (s.accept o rest) = .next t) ∨
    (s.resetPin = false ∧ s.spuState = .idle ∧ s.flush = .idle ∧
      ∃ o rest e, s.offers = o :: rest ∧ decode o = .error e ∧ t = (s.accept o rest).refuse .illegalRequest) := by
  unfold step at h
  split at h
  · next hr => exact .inl ⟨hr, by simpa using h.symm⟩
  · next hr =>
    have hr : s.resetPin = false := by simpa using hr
    split at h
    · next hs => exact .inr (.inl ⟨hr, hs, by simpa using h.symm⟩)
    · next hs => exact .inr (.inr (.inl ⟨hr, hs, by simpa using h.symm⟩))
    · next hs => exact .inr (.inr (.inr (.inl ⟨hr, hs, by simpa using h.symm⟩)))
    · next hs =>
      split at h
      · next hf => exact .inr (.inr (.inr (.inr (.inl ⟨hr, hs, hf, by simpa using h.symm⟩))))
      · next hf => exact .inr (.inr (.inr (.inr (.inr (.inl ⟨hr, hs, hf, by simpa using h.symm⟩)))))
      · next hf =>
        refine .inr (.inr (.inr (.inr (.inr (.inr ?_)))))
        split at h
        · next ho => exact .inl ⟨hr, hs, hf, ho, by simpa using h.symm⟩
        · next o rest ho =>
          split at h
          · next i hd => exact .inr (.inl ⟨hr, hs, hf, o, rest, i, ho, hd, h⟩)
          · next e hd =>
            exact .inr (.inr ⟨hr, hs, hf, o, rest, e, ho, hd, by simpa [State.illegalRequest] using h.symm⟩)

theorem core_run_succ (M : Host.Core) {n : Nat} {s t : M.State} (h : M.step s = .next t) : M.run (n + 1) s = M.run n t := by
  simp only [Host.Core.run, h]

/-- A run of `n + 1` steps begins with a step. -/
theorem run_succ {n : Nat} {s t : State} (h : step s = .next t) : core.run (n + 1) s = core.run n t :=
  core_run_succ core h

end Sys2Proof.Machine
end

