-- ==== Sys2Proof/Machine/Pseudo.lean ====
section
/-! DEFINITION. What the host issues: the pseudo-instructions of 30_encoding.md R88, as the requests they stand for, and
the two formulas of 70_reset_and_hazards.md R202 and R204. The block knows nothing of them; they are here for claims. -/

namespace Sys2Proof.Machine

/-- `ERASE_ALL` (R88). -/
def eraseAll : List Instr := [.writeEnable, .bulkErase, .waitReady 1000 200000]

/-- `ERASE_BLOCK addr, budget_ms` (R88). -/
def eraseBlock (addr : BitVec 24) (budgetMs : BitVec 32) : List Instr :=
  [.writeEnable, .sectorErase addr, .waitReady 150 budgetMs]

/-- `PROGRAM_COMMIT` (R88). -/
def programCommit : List Instr := [.flush, .waitReady 50 100]

/-- `SHUTDOWN` (R88). -/
def shutdown : List Instr := [.powerDown]

/-- The chunks, as start and length, that tile `len` bytes at `offset` (R202): `256 - (offset mod 256)` first, 256
thereafter. `len` chunks are always enough. -/
def pageTiles : Nat → Nat → Nat → List (Nat × Nat)
  | 0, _, _ => []
  | fuel + 1, offset, len =>
    if len = 0 then []
    else
      let chunk := min len (Config.page - offset % Config.page)
      (offset, chunk) :: pageTiles fuel (offset + chunk) (len - chunk)

/-- The erase range `[begin, end)` of R204. -/
def eraseRange (offset len : Nat) : Nat × Nat :=
  (offset / Config.block * Config.block, (offset + len + (Config.block - 1)) / Config.block * Config.block)

end Sys2Proof.Machine
end

