-- ==== Sys2Proof/Tests/Slice0.lean ====
section
/-! SUPPORT. Tests. Words and results come from 95_test_vectors.md (a `V` number) or are worked out from the rules named. The
`witness_` theorems show, for each statement with hypotheses, a state and operands that meet them. -/

namespace Sys2Proof.Tests
open Sys2Proof.Machine Sys2Proof.Spec

/-! ## WellFormed: each check refuses an ill-formed term -/

theorem test_wf_bytes_payload_too_long : wellFormed (.bytes (List.replicate (2 ^ 17) 0)) = false := by
  rw [wellFormed, fitsCount, List.length_replicate]; decide
theorem test_wf_program_payload_too_long : wellFormed (.programPage 0 (List.replicate (2 ^ 17) 0)) = false := by
  rw [wellFormed, fitsCount, List.length_replicate]; decide
theorem test_wf_programPace_payload_too_long : wellFormed (.programPagePace 0 (List.replicate (2 ^ 17) 0) 1) = false := by
  rw [wellFormed, fitsCount, List.length_replicate]; decide
theorem test_wf_out_empty : wellFormed (.mpsseOut []) = false := by decide
theorem test_wf_out_too_long : wellFormed (.mpsseOut (List.replicate 65537 0)) = false := by
  rw [wellFormed, fitsTransfer, List.length_replicate]; decide
theorem test_wf_outIn_empty : wellFormed (.mpsseOutIn []) = false := by decide
theorem test_wf_spiPage_empty : wellFormed (.spiPageProgram 0 []) = false := by decide
theorem test_wf_spiPage_too_long : wellFormed (.spiPageProgram 0 (List.replicate 257 0)) = false := by
  rw [wellFormed, fitsPage, List.length_replicate]; decide
theorem test_wf_spiRead_zero : wellFormed (.spiRead 0 0) = false := by decide
theorem test_wf_spiRead_too_long : wellFormed (.spiRead 0 65533) = false := by decide

/-! ## Decoding: words written out from R70 to R72, R78 to R80, R85 and R86 -/

theorem test_decode_cfgPins_V5 :
    decode (.request 0x00000000000008FB0000000000000000 []) = .ok (.cfgPins 0xFB 0x08 0x00) := rfl
theorem test_decode_cfgClock_V6 :
    decode (.request 0x00000000005B8D800000000000000001 []) = .ok (.cfgClock 6000000) := rfl
theorem test_decode_csSelect_V10 : decode (.request 0x00000000000000000000000000000002 []) = .ok .csSelect := rfl
theorem test_decode_csDeselect_V11 : decode (.request 0x00000000000000000000000000000003 []) = .ok .csDeselect := rfl
theorem test_decode_dataOut_V15 : decode (.request 0x00000000000000000000010400000004 []) = .ok (.dataOut 260) := rfl
theorem test_decode_dataOutIn_V21 : decode (.request 0x00000000000000000001000000000005 []) = .ok (.dataOutIn 65536) := rfl
theorem test_decode_waitMask_V24 : decode (.request 0x000000000000000000000BB800000006 []) = .ok (.waitMask 3000) := rfl
theorem test_decode_bytes_V28 :
    decode (.request 0x00000000000000000000000200000007 [0x05, 0xFF]) = .ok (.bytes [0x05, 0xFF]) := rfl
theorem test_decode_flush : decode (.request 0x00000000000000000000000000000008 []) = .ok .flush := rfl
theorem test_decode_identify_V30 : decode (.request 0x00000000000000000000000000000009 []) = .ok .identify := rfl
theorem test_decode_powerUp_V32 : decode (.request 0x0000000000000000000000000000000A []) = .ok .powerUp := rfl
theorem test_decode_powerDown_V33 : decode (.request 0x0000000000000000000000000000000B []) = .ok .powerDown := rfl
theorem test_decode_writeEnable_V34 : decode (.request 0x0000000000000000000000000000000C []) = .ok .writeEnable := rfl
theorem test_decode_bulkErase_V35 : decode (.request 0x0000000000000000000000000000000D []) = .ok .bulkErase := rfl
theorem test_decode_sectorErase_V38 :
    decode (.request 0x0000000000000000000000001234560E []) = .ok (.sectorErase 0x123456) := rfl
theorem test_decode_programPage_V41 :
    decode (.request 0x0000000000000000000000020001000F [0xAA, 0xBB]) = .ok (.programPage 0x000100 [0xAA, 0xBB]) := rfl
theorem test_decode_programPagePace_V42 :
    decode (.request 0x0000000000000320000000020001002F [0xAA, 0xBB]) =
      .ok (.programPagePace 0x000100 [0xAA, 0xBB] 800) := rfl
theorem test_decode_read_V51 : decode (.request 0x00000000000000000000000201FFFE10 []) = .ok (.read 0x01FFFE 2) := rfl
theorem test_decode_waitReady_V61 :
    decode (.request 0x000007D0000000960000000000000011 []) = .ok (.waitReady 150 2000) := rfl
theorem test_decode_reserved12_V80 :
    decode (.request 0x00000000000000000000000000000012 []) = .ok (.reserved12 0 0 []) := rfl
theorem test_decode_reserved14 : decode (.request 0x00000000000000000000000000000016 []) = .ok (.reserved14 2 0 []) := rfl
theorem test_decode_reserved18_V81 :
    decode (.request 0x0000000000000000000000000000001F []) = .ok (.reserved18 7 0 []) := rfl
theorem test_decode_mpsseSetLow : decode (.mpsse [Config.opcSetLow, 0x08, 0x0B]) = .ok (.mpsseSetLow 0x08 0x0B) := by
  simp [decode, decodeItem, parseItem]
theorem test_decode_mpsseOut : decode (.mpsse [Config.opcOut, 0x01, 0x00, 0xAA, 0xBB]) = .ok (.mpsseOut [0xAA, 0xBB]) := by
  simp [decode, decodeItem, parseItem, takeExactly, Config.opcSetLow_ne_opcOut.symm, Config.opcOut_ne_opcWait]
theorem test_decode_mpsseOutIn :
    decode (.mpsse [Config.opcOutIn, 0x01, 0x00, 0x05, 0xFF]) = .ok (.mpsseOutIn [0x05, 0xFF]) := by
  simp [decode, decodeItem, parseItem, takeExactly, Config.opcSetLow_ne_opcOutIn.symm, Config.opcOutIn_ne_opcWait,
    Config.opcOut_ne_opcOutIn.symm]
/-- V23's bytes: a count of 600 is sent as 599, low byte first. -/
theorem test_decode_mpsseWait_V23 : decode (.mpsse [Config.opcWait, 0x57, 0x02]) = .ok (.mpsseWait 599) := by
  simp [decode, decodeItem, parseItem, Config.opcSetLow_ne_opcWait.symm]
theorem test_decode_spiIdentify : decode (.spi [0x9F, 0xFF, 0xFF, 0xFF]) = .ok (.spiIdentify 0xFF 0xFF 0xFF) := rfl
theorem test_decode_spiPowerUp : decode (.spi [0xAB]) = .ok .spiPowerUp := rfl
theorem test_decode_spiPowerDown : decode (.spi [0xB9]) = .ok .spiPowerDown := rfl
theorem test_decode_spiWriteEnable : decode (.spi [0x06]) = .ok .spiWriteEnable := rfl
theorem test_decode_spiBulkErase : decode (.spi [0xC7]) = .ok .spiBulkErase := rfl
theorem test_decode_spiSectorErase64k : decode (.spi [0xD8, 0x12, 0x34, 0x56]) = .ok (.spiSectorErase64k 0x123456) := rfl
theorem test_decode_spiPageProgram :
    decode (.spi [0x02, 0x00, 0x01, 0x00, 0xAA, 0xBB]) = .ok (.spiPageProgram 0x000100 [0xAA, 0xBB]) := rfl
theorem test_decode_spiRead : decode (.spi [0x03, 0x01, 0xFF, 0xFE, 0xFF, 0xFF]) = .ok (.spiRead 0x01FFFE 2) := rfl
theorem test_decode_spiReadStatus : decode (.spi [0x05, 0xFF]) = .ok (.spiReadStatus 0xFF) := rfl

/-! Rejected by name: the illegal words of V8, V29, V49, V82 to V85. -/

theorem test_illegal_V8 : decode (.request 0x000000000108000B0000000000000000 []) = .error .aField := rfl
theorem test_illegal_V29 : decode (.request 0x00000000000000000000000200000007 [0x05]) = .error .payloadLength := rfl
theorem test_illegal_V49 : decode (.request 0x0000000000000320000000020001000F [0xAA, 0xBB]) = .error .aField := rfl
theorem test_illegal_V82 : decode (.request 0x00000000000000000000000000000042 []) = .error .reservedBits := rfl
theorem test_illegal_V83 : decode (.request 0x00000000000000000002000000000002 []) = .error .reservedBits := rfl
theorem test_illegal_V84 : decode (.request 0x00000000000000000000000000000022 []) = .error .paceField := rfl
theorem test_illegal_V85 : decode (.request 0x00000000000000000000000000000109 []) = .error .addrField := rfl
/-- A read's filler is `0xFF` (R86). -/
theorem test_illegal_spiRead_filler : decode (.spi [0x03, 0x00, 0x00, 0x00, 0xFE]) = .error .spiCommand := rfl

/-! ## One request on a small state -/

/-- After reset and `CFG_PINS 0x0B, 0x00, 0x08` (the start state of 95_test_vectors.md). -/
def ready : State := { State.reset with dirMask := 0x0B, valSelect := 0x00, valDeselect := 0x08, pinsValid := true }

/-- The state that a next outcome holds. -/
def after (o : Out) : State :=
  match o with
  | .next t => t
  | _ => State.reset

/-- The outcome of an instruction as a host sees it. -/
def resultOf (i : Instr) (s : State) : Result := (after (exec i s)).result

theorem test_cfgPins_V1 : after (exec (.cfgPins 0x0B 0x00 0x08) State.reset) = { ready with result := .ok [] } := rfl
theorem test_cfgPins_equal_V2 : resultOf (.cfgPins 0x0B 0x08 0x08) State.reset = .refused .badConfig := by decide
theorem test_cfgPins_two_bits_V3 : resultOf (.cfgPins 0x0B 0x00 0x18) State.reset = .refused .badConfig := by decide
theorem test_cfgPins_input_V4 : resultOf (.cfgPins 0x03 0x00 0x08) State.reset = .refused .badConfig := by decide
theorem test_cfgClock_V6 : (after (exec (.cfgClock 6000000) State.reset)).sckHz = 6000000 := by decide
theorem test_cfgClock_V7 : resultOf (.cfgClock 0) State.reset = .refused .badConfig := by decide
theorem test_csSelect_V10 : (after (exec .csSelect ready)).cbuf = [Config.opcSetLow, 0x00, 0x0B] := rfl
theorem test_csSelect_V9 : resultOf .csSelect State.reset = .refused .notConfigured := by decide
theorem test_csDeselect_V11 : (after (exec .csDeselect ready)).cbuf = [Config.opcSetLow, 0x08, 0x0B] := rfl
theorem test_dataOut_V15 : (after (exec (.dataOut 260) ready)).cbuf = [Config.opcOut, 0x03, 0x01] := rfl
theorem test_dataOut_V18 : resultOf (.dataOut 65537) ready = .refused .badLength := by decide
theorem test_dataOutIn_V20 :
    (after (exec (.dataOutIn 4) ready)).cbuf = [Config.opcOutIn, 0x03, 0x00] ∧ (after (exec (.dataOutIn 4) ready)).respOwed = 4 :=
  ⟨rfl, rfl⟩
/-- The third request of V21. -/
theorem test_dataOutIn_V21 : resultOf (.dataOutIn 65536) { ready with respOwed := 131072 } = .refused .cbufOverflow := by decide
theorem test_waitMask_V24 : (after (exec (.waitMask 3000) ready)).cbuf = [Config.opcWait, 0xB7, 0x0B] := rfl
theorem test_waitMask_V26 : resultOf (.waitMask 0) ready = .refused .badLength := by decide
theorem test_bytes_V28 : (after (exec (.bytes [0x05, 0xFF]) ready)).cbuf = [0x05, 0xFF] := by decide
theorem test_flush_empty : (after (exec .flush { ready with rbuf := [1] })).rbuf = [] := by decide
theorem test_identify_V30 :
    (after (exec .identify ready)).tx =
      [[Config.opcSetLow, 0x00, 0x0B, Config.opcOutIn, 0x03, 0x00, 0x9F, 0xFF, 0xFF, 0xFF, Config.opcSetLow, 0x08, 0x0B]] := rfl
theorem test_powerUp_V32 :
    (after (exec .powerUp ready)).tx =
      [[Config.opcSetLow, 0x00, 0x0B, Config.opcOut, 0x00, 0x00, 0xAB, Config.opcSetLow, 0x08, 0x0B]] := rfl
/-- V90: `POWER_DOWN` passes the fault gate. -/
theorem test_powerDown_V90 :
    (after (exec .powerDown { ready with fault := ⟨some .waitTimeout, 150, 100⟩ })).tx =
      [[Config.opcSetLow, 0x00, 0x0B, Config.opcOut, 0x00, 0x00, 0xB9, Config.opcSetLow, 0x08, 0x0B]] := rfl
theorem test_writeEnable_V87 :
    resultOf .writeEnable { ready with fault := ⟨some .waitTimeout, 150, 100⟩ } = .refused .faulted := by decide
theorem test_bulkErase_V35 :
    (after (exec .bulkErase ready)).tx =
      [[Config.opcSetLow, 0x00, 0x0B, Config.opcOut, 0x00, 0x00, 0xC7, Config.opcSetLow, 0x08, 0x0B]] := rfl
theorem test_sectorErase_V38 :
    (after (exec (.sectorErase 0x123456) ready)).tx =
      [[Config.opcSetLow, 0x00, 0x0B, Config.opcOut, 0x03, 0x00, 0xD8, 0x12, 0x34, 0x56, Config.opcSetLow, 0x08, 0x0B]] := rfl
theorem test_programPage_V41 :
    (after (exec (.programPage 0x000100 [0xAA, 0xBB]) ready)).cbuf =
      [Config.opcSetLow, 0x00, 0x0B, Config.opcOut, 0x00, 0x00, 0x06, Config.opcSetLow, 0x08, 0x0B,
       Config.opcSetLow, 0x00, 0x0B, Config.opcOut, 0x05, 0x00, 0x02, 0x00, 0x01, 0x00, 0xAA, 0xBB,
       Config.opcSetLow, 0x08, 0x0B] := rfl
theorem test_programPage_V45 : resultOf (.programPage 0x0000FF [0x5A, 0x5B]) ready = .refused .pageCross := by decide
theorem test_programPagePace_V42 :
    (after (exec (.programPagePace 0x000100 [0xAA, 0xBB] 800) { ready with sckHz := 6000000 })).cbuf.drop 25 =
      [Config.opcWait, 0x57, 0x02] := rfl
theorem test_programPagePace_V48 :
    resultOf (.programPagePace 0x000100 [0xAA, 0xBB] 800) ready = .refused .notConfigured := by decide
theorem test_read_V51 :
    (after (exec (.read 0x01FFFE 2) ready)).tx =
      [[Config.opcSetLow, 0x00, 0x0B, Config.opcOutIn, 0x05, 0x00, 0x03, 0x01, 0xFF, 0xFE, 0xFF, 0xFF,
        Config.opcSetLow, 0x08, 0x0B]] := rfl
theorem test_read_V54 : resultOf (.read 0xFFFFFF 2) ready = .refused .addrRange := by decide
theorem test_waitReady_first_poll :
    (after (exec (.waitReady 50 100) ready)).tx =
      [[Config.opcSetLow, 0x00, 0x0B, Config.opcOutIn, 0x01, 0x00, 0x05, 0xFF, Config.opcSetLow, 0x08, 0x0B]] := rfl
theorem test_waitReady_V69 : resultOf (.waitReady 0 100) ready = .refused .zeroPoll := by decide
/-- V86: an illegal request is refused before the fault gate. -/
theorem test_reserved12_V86 :
    resultOf (.reserved12 0 0 []) { ready with fault := ⟨some .waitTimeout, 150, 100⟩ } = .refused .illegalRequest := by decide
theorem test_reserved14 : resultOf (.reserved14 0 0 []) ready = .refused .illegalRequest := by decide
theorem test_reserved18_V81 : resultOf (.reserved18 7 0 []) ready = .refused .illegalRequest := by decide
theorem test_mpsseWait : (after (exec (.mpsseWait 599) ready)).cbuf = [Config.opcWait, 0x57, 0x02] := rfl
theorem test_mpsseOutIn_owes : (after (exec (.mpsseOutIn [0x05, 0xFF]) ready)).respOwed = 2 := by decide
theorem test_spiReadStatus_transaction :
    (after (exec (.spiReadStatus 0xFF) ready)).cbuf =
      [Config.opcSetLow, 0x00, 0x0B, Config.opcOutIn, 0x01, 0x00, 0x05, 0xFF, Config.opcSetLow, 0x08, 0x0B] := rfl

/-! The pacing table after V49. -/

theorem test_pace_800us : paceCount 800 6000000 = 600 := by decide
theorem test_pace_clamped_up : paceCount 1 1000000 = 1 := by decide
theorem test_pace_65535 : paceCount 87381 6000000 = 65535 := by decide
theorem test_pace_clamped_down : paceCount 4294967295 4294967295 = 65536 := by decide

/-! The host's formulas, S2 and S10. -/

theorem test_pageTiles_S10 :
    pageTiles 600 0x1F0 600 = [(0x1F0, 16), (0x200, 256), (0x300, 256), (0x400, 72)] := by decide
theorem test_eraseRange_S2 : eraseRange 0xFFF0 0x20 = (0, 0x20000) := by decide

/-! ## One reply on a small state -/

/-- In `POLL_RX` of `WAIT_READY 50, 100`, with a status byte to come. -/
def polled (status : Byte) : State :=
  { ready with
    spuState := .pollRx, pollMs := 50, budgetMs := 100, cbuf := [1], respOwed := 2, rx := [.byte 0xFF, .byte status] }

/-- In `SLEEP` of `WAIT_READY 50, budget`. -/
def asleep (elapsed : BitVec 33) (budget : BitVec 32) : State :=
  { ready with spuState := .sleep, pollMs := 50, budgetMs := budget, elapsedMs := elapsed, wakes := 1 }

theorem test_poll_ready_V67 : (after (step (polled 0xFE))).result = .ok [] ∧ (after (step (polled 0xFE))).statusByte = 0xFE := by
  decide
theorem test_poll_busy : (after (step (polled 0x01))).spuState = .sleep := by decide
/-- V62: elapsed equal to the budget polls on. -/
theorem test_wake_at_budget_V62 : (after (step (asleep 50 100))).spuState = .pollTx := by decide
theorem test_wake_past_budget_V64 : (after (step (asleep 50 99))).fault = ⟨some .waitTimeout, 100, 99⟩ := by decide
/-- The `ShortWrite(5, 11)` of 95_test_vectors.md section 2.2. -/
theorem test_short_write :
    (after (step { ready with cbuf := List.replicate 11 0, respOwed := 2, flush := .writing, txReplies := [.shortWrite 5] })).fault =
      ⟨some .transportShortWrite, 5, 11⟩ := by decide
/-- P4, step 4: a second fault goes to `CLEANUP_FAULT`. -/
theorem test_cleanup_fault_P4 :
    (after (step { ready with
      fault := ⟨some .waitTimeout, 150, 100⟩, cbuf := [1], flush := .writing, txReplies := [.disconnected] })).cleanupFault =
      ⟨some .transportDisconnected, 0, 0⟩ := by decide
/-- V31. -/
theorem test_read_fails_V31 :
    (after (step { ready with cbuf := [1], respOwed := 4, flush := .reading, rx := [.byte 0xFF, .driverError 0x1234] })).fault =
      ⟨some .transportDriverError, 1, 0x1234⟩ := by decide
/-- P6: the result of an `IDENTIFY` behind two owed bytes. -/
theorem test_identify_slice_P6 :
    (after (step { ready with
      cbuf := [1], respOwed := 6, flush := .reading, base := 2, extract := .identify,
      rx := [.byte 0xFF, .byte 0x02, .byte 0xFF, .byte 0xEF, .byte 0x40, .byte 0x18] })).result = .ok [0xEF, 0x40, 0x18] := by
  decide
theorem test_status_word : { ready with statusByte := 0x03, statusValid := true, spuState := .sleep }.statusWord = 0x03E9 := by
  decide

/-- R192: reset during a `TxRead` with no reply yet does not empty the read side. -/
theorem test_reset_keeps_unread_bytes :
    (after (step { polled 1 with resetPin := true, respOwed := 2, rx := [.byte 7] })).rx = [.byte 7] := by decide
/-- R192, U18: after reset the environment may be any. -/
theorem test_reset_leaves_any_environment :
    (after (step { polled 1 with
      resetPin := true, rx := [.byte 7],
      afterReset := [⟨[.disconnected], [.byte 1, .byte 2], 3⟩] })).environment = ⟨[.disconnected], [.byte 1, .byte 2], 3⟩ := by
  decide

/-! ## Rows of the opcode table -/

theorem test_table_programPage : decodeTableWord 128 0x0000000000000000000000020001000F = some (.programPage 0x100 [0, 0]) := rfl
theorem test_table_sectorErase : decodeTableWord 128 0x0000000000000000000000001234560E = some (.sectorErase 0x123456) := rfl
theorem test_table_reserved12 : decodeTableWord 8 0x12 = some (.reserved12 0 0 []) := rfl
theorem test_table_spiSectorErase64k : decodeTableWord 32 0x563412D8 = some (.spiSectorErase64k 0x123456) := rfl
theorem test_table_spiPowerUp : decodeTableWord 8 0xAB = some .spiPowerUp := rfl
theorem test_fetch_runs_cfgPins :
    (after (step (State.reset.withFetchWord 128 0x000000000008000B0000000000000000))).valDeselect = 0x08 := by decide

/-! ## Witnesses -/

/-- Any accepted state of a run in miniature: pins, clock, replies for two transfers. -/
def fed : State :=
  { ready with
    sckHz := 6000000, txReplies := [.ok, .ok], rx := [.byte 0xFF, .byte 0xEF, .byte 0x40, .byte 0x18], wakes := 2 }

theorem fed_ready : Ready fed := ⟨rfl, rfl, rfl⟩
theorem fed_room : ¬ Overflows fed 13 4 := by decide

theorem witness_DecodeOfEncode : wellFormed (.programPagePace 0x000100 [0xAA, 0xBB] 800) = true := by decide
theorem witness_AcceptedIsItsOwnEncoding : decode (.spi [0xD8, 0x12, 0x34, 0x56]) = .ok (.spiSectorErase64k 0x123456) := rfl
/-- The two ends of each clause's range. -/
theorem witness_FlashEmissionsAreTransactions :
    (List.replicate 256 (0 : Byte)).length ≤ 256 ∧ ([] : Bytes).length ≤ 256 ∧ (65532 : BitVec 17).toNat ≤ 65532 ∧
      (0 : BitVec 17).toNat ≤ 65532 :=
  ⟨by rw [List.length_replicate], by decide, by decide, by decide⟩
theorem witness_BufferStaysWellFramed :
    isRaw .csSelect = false ∧ WellFramed fed.cbuf ∧ ∃ t, exec .csSelect fed = .next t := ⟨rfl, rfl, _, rfl⟩
theorem witness_StepRunsTheDecodedInstruction :
    Ready fed ∧ { fed with offers := [.request 0x8 []] }.offers = [.request 0x8 []] ∧ decode (.request 0x8 []) = .ok .flush :=
  ⟨fed_ready, rfl, rfl⟩
theorem witness_IllegalRequestChangesOnlyResult :
    Ready fed ∧ { fed with offers := [.request 0x42 []] }.offers = [.request 0x42 []] ∧ IllegalByRule 0x42 [] :=
  ⟨fed_ready, rfl, by unfold IllegalByRule; decide⟩
theorem witness_LegalRequestIsDecoded : ¬ IllegalByRule 0x08 [] := by unfold IllegalByRule; decide
theorem witness_OfferWaitsWhileBusy :
    (polled 1).resetPin = false ∧ (polled 1).statusWord.getLsbD 0 = true := by decide
theorem witness_NoReplyHoldsTheBlock_write :
    AwaitsWrite { ready with cbuf := [1], flush := .writing } ∧ { ready with cbuf := [1], flush := .writing }.txReplies = [] :=
  ⟨⟨rfl, .inr ⟨rfl, rfl⟩⟩, rfl⟩
theorem witness_NoReplyHoldsTheBlock_read :
    AwaitsRead { polled 1 with rx := [.byte 0xFF] } ∧ ([0xFF] : Bytes).length < (polled 1).respOwed ∧
      { polled 1 with rx := [.byte 0xFF] }.rx = ([0xFF] : Bytes).map RxEvent.byte :=
  ⟨⟨rfl, .inl rfl⟩, by decide, rfl⟩
theorem witness_NoReplyHoldsTheBlock_sleep :
    { asleep 50 100 with wakes := 0 }.resetPin = false ∧ { asleep 50 100 with wakes := 0 }.spuState = .sleep ∧
      { asleep 50 100 with wakes := 0 }.wakes = 0 := by decide
theorem witness_ResetInputFromAnyState_given :
    let s : State := { asleep 50 100 with resetPin := true, afterReset := [⟨[.ok], [.byte 7], 2⟩] }
    s.resetPin = true ∧ s.afterReset = ⟨[.ok], [.byte 7], 2⟩ :: [] := ⟨rfl, rfl⟩
theorem witness_ResetInputFromAnyState_idle :
    let s : State := { ready with resetPin := true, rx := [.byte 7] }
    s.resetPin = true ∧ s.afterReset = [] ∧ s.call = none := ⟨rfl, rfl, rfl⟩
theorem witness_ResetInputFromAnyState_write :
    let s : State := { ready with resetPin := true, cbuf := [1], flush := .writing }
    s.resetPin = true ∧ s.afterReset = [] ∧ s.call = some (.txWrite [1]) := ⟨rfl, rfl, rfl⟩
theorem witness_ResetInputFromAnyState_read :
    let s : State := { polled 1 with resetPin := true, respOwed := 1, rx := [.byte 7, .byte 8] }
    s.resetPin = true ∧ s.afterReset = [] ∧ s.call = some (.txRead 1) ∧
      collect 1 s.rx = some (.bytes [7], [.byte 8]) := ⟨rfl, rfl, rfl, rfl⟩
theorem witness_ResetInputFromAnyState_unanswered :
    let s : State := { polled 1 with resetPin := true, respOwed := 2, rx := [.byte 7] }
    s.resetPin = true ∧ s.afterReset = [] ∧ s.call = some (.txRead 2) ∧ collect 2 s.rx = none := ⟨rfl, rfl, rfl, rfl⟩
theorem witness_ResetInputFromAnyState_sleep :
    let s : State := { asleep 50 100 with resetPin := true }
    s.resetPin = true ∧ s.afterReset = [] ∧ s.call = some (.sleep 50) := ⟨rfl, rfl, rfl⟩
theorem witness_OnlyResetClearsAFault :
    let s : State := { ready with fault := ⟨some .waitTimeout, 150, 100⟩, cleanupFault := ⟨some .transportDisconnected, 0, 0⟩ }
    (∃ t, step s = .next t) ∧ s.resetPin = false ∧ s.fault.kind ≠ none ∧ s.cleanupFault.kind ≠ none ∧
      { s with resetPin := true }.resetPin = true :=
  ⟨⟨_, rfl⟩, rfl, by decide, by decide, rfl⟩
theorem ready_inv : Inv ready := by
  constructor <;> decide
theorem witness_StepKeepsTheStateInvariant :
    Inv { ready with offers := [.request 0x9 []] } ∧ ∃ t, step { ready with offers := [.request 0x9 []] } = .next t :=
  ⟨by constructor <;> decide, _, rfl⟩
/-- A legal and an illegal pair of values. -/
theorem witness_CfgPinsMeaning :
    (∃ k : Fin 8, (0x00 ^^^ 0x08 : Byte) = 1#8 <<< k.val ∧ (0x0B : Byte).getLsbD k.val = true) ∧
      ¬ ∃ k : Fin 8, (0x00 ^^^ 0x18 : Byte) = 1#8 <<< k.val ∧ (0x0B : Byte).getLsbD k.val = true := by decide
theorem witness_FlushCompletes_nothing_owed :
    let s : State := { fed with cbuf := [1] }
    Ready s ∧ s.fault.kind = none ∧ s.cbuf ≠ [] ∧ s.txReplies = .ok :: [.ok] ∧ ([] : Bytes).length = s.respOwed ∧
      s.rx = ([] : Bytes).map .byte ++ fed.rx ∧ s.respOwed = 0 := by
  exact ⟨fed_ready, rfl, by decide, rfl, rfl, rfl, rfl⟩
theorem witness_FlushCompletes_owed :
    let s : State := { fed with cbuf := [1], respOwed := 1 }
    Ready s ∧ s.fault.kind = none ∧ s.cbuf ≠ [] ∧ s.txReplies = .ok :: [.ok] ∧ ([0xFF] : Bytes).length = s.respOwed ∧
      s.rx = ([0xFF] : Bytes).map .byte ++ fed.rx.tail ∧ 0 < s.respOwed := by
  exact ⟨fed_ready, rfl, by decide, rfl, rfl, rfl, by decide⟩
theorem witness_WriteReplyOk_poll :
    let s : State := { fed with spuState := .pollTx }
    s.resetPin = false ∧ s.txReplies = .ok :: [.ok] ∧ s.spuState = .pollTx := by decide
theorem witness_WriteReplyOk_owed :
    let s : State := { fed with flush := .writing, respOwed := 1 }
    s.resetPin = false ∧ s.txReplies = .ok :: [.ok] ∧ s.spuState = .idle ∧ s.flush = .writing ∧ 0 < s.respOwed := by decide
theorem witness_WriteReplyOk_nothing_owed :
    let s : State := { fed with flush := .writing }
    s.resetPin = false ∧ s.txReplies = .ok :: [.ok] ∧ s.spuState = .idle ∧ s.flush = .writing ∧ s.respOwed = 0 ∧
      s.extract = .nothing := by decide
/-- A flush of 11 bytes of which 10 are written, the largest `actual`. -/
theorem witness_WriteReplyError_short :
    let s : State := { ready with cbuf := List.replicate 11 0, flush := .writing, txReplies := [.shortWrite 10] }
    AwaitsWrite s ∧ 10 < s.cbuf.length ∧ s.txReplies = [.shortWrite 10] := ⟨⟨rfl, .inr ⟨rfl, rfl⟩⟩, by decide, rfl⟩
theorem witness_WriteReplyError_disconnected :
    let s : State := { ready with cbuf := [1], spuState := .pollTx, txReplies := [.disconnected] }
    AwaitsWrite s ∧ s.txReplies = [.disconnected] := ⟨⟨rfl, .inl rfl⟩, rfl⟩
theorem witness_WriteReplyError_driver :
    let s : State := { ready with cbuf := [1], flush := .writing, txReplies := [.driverError 0x1234] }
    AwaitsWrite s ∧ s.txReplies = [.driverError 0x1234] := ⟨⟨rfl, .inr ⟨rfl, rfl⟩⟩, rfl⟩
theorem witness_ReadReplyError_disconnected :
    let s : State := { polled 1 with rx := [.byte 0xFF, .disconnected] }
    AwaitsRead s ∧ ([0xFF] : Bytes).length < s.respOwed ∧ s.rx = ([0xFF] : Bytes).map .byte ++ .disconnected :: [] :=
  ⟨⟨rfl, .inl rfl⟩, by decide, rfl⟩
theorem witness_ReadReplyError_driver :
    let s : State := { fed with cbuf := [1], respOwed := 4, flush := .reading, rx := [.driverError 0x1234] }
    AwaitsRead s ∧ ([] : Bytes).length < s.respOwed ∧ s.rx = ([] : Bytes).map .byte ++ .driverError 0x1234 :: [] :=
  ⟨⟨rfl, .inr ⟨rfl, rfl⟩⟩, by decide, rfl⟩
/-- In the read of a flush that owes `r`, for a request that returns the slice `x` from `base` on. -/
def reading (x : Extract) (base : Nat) (r : Bytes) : State :=
  { ready with cbuf := [1], respOwed := r.length, flush := .reading, base := base, extract := x, rx := r.map .byte }

theorem witness_FlushReadReply_nothing :
    let s : State := reading .nothing 0 [0xFF, 2]
    s.resetPin = false ∧ s.spuState = .idle ∧ s.flush = .reading ∧ ([0xFF, 2] : Bytes).length = s.respOwed ∧
      s.rx = ([0xFF, 2] : Bytes).map .byte ++ [] ∧ s.extract = .nothing := ⟨rfl, rfl, rfl, rfl, rfl, rfl⟩
/-- P6: behind two bytes of an earlier transfer. -/
theorem witness_FlushReadReply_identify :
    let r : Bytes := [0xFF, 0x02] ++ [0xFF, 0xEF, 0x40, 0x18]
    let s : State := reading .identify 2 r
    s.resetPin = false ∧ s.spuState = .idle ∧ s.flush = .reading ∧ r.length = s.respOwed ∧ s.rx = r.map .byte ++ [] ∧
      s.extract = .identify ∧ ([0xFF, 0x02] : Bytes).length = s.base := ⟨rfl, rfl, rfl, rfl, rfl, rfl, rfl⟩
/-- V51. -/
theorem witness_FlushReadReply_read :
    let r : Bytes := [] ++ [0, 0, 0, 0] ++ [0x12, 0x34]
    let s : State := reading (.read 2) 0 r
    s.resetPin = false ∧ s.spuState = .idle ∧ s.flush = .reading ∧ r.length = s.respOwed ∧ s.rx = r.map .byte ++ [] ∧
      s.extract = .read 2 ∧ ([] : Bytes).length = s.base ∧ ([0, 0, 0, 0] : Bytes).length = 4 ∧
      ([0x12, 0x34] : Bytes).length = 2 := ⟨rfl, rfl, rfl, rfl, rfl, rfl, rfl, rfl, rfl⟩
theorem witness_IdentifyReturnsThreeBytes :
    Ready fed ∧ fed.fault.kind = none ∧ fed.pinsValid = true ∧ ¬ Overflows fed 13 4 ∧ fed.txReplies = .ok :: [.ok] ∧
      ([] : Bytes).length = fed.respOwed ∧ fed.rx = ([] ++ [0xFF, 0xEF, 0x40, 0x18] : Bytes).map .byte ++ [] :=
  ⟨fed_ready, rfl, rfl, fed_room, rfl, rfl, rfl⟩
theorem witness_SingleOpcodeMeaning :
    ((Instr.bulkErase, 0x0D, 0xC7) : Instr × BitVec 5 × Byte) ∈
      ([(.powerUp, 0x0A, 0xAB), (.writeEnable, 0x0C, 0x06), (.bulkErase, 0x0D, 0xC7)] : List (Instr × BitVec 5 × Byte)) := by
  decide
theorem witness_FireAndForgetCompletes_nothing_owed :
    ((Instr.sectorErase 0x123456, [0xD8] ++ addrBytes 0x123456) : Instr × Bytes) ∈
      ([(.powerUp, [0xAB]), (.powerDown, [0xB9]), (.writeEnable, [0x06]), (.bulkErase, [0xC7]),
        (.sectorErase 0x123456, [0xD8] ++ addrBytes 0x123456)] : List (Instr × Bytes)) ∧
    Ready fed ∧ fed.fault.kind = none ∧ fed.pinsValid = true ∧ ¬ Overflows fed 13 0 ∧
      fed.txReplies = .ok :: [.ok] ∧ ([] : Bytes).length = fed.respOwed ∧ fed.rx = ([] : Bytes).map .byte ++ fed.rx ∧
      fed.respOwed = 0 :=
  ⟨by decide, fed_ready, rfl, rfl, by decide, rfl, rfl, rfl, rfl⟩
/-- Behind a deferred transfer that owes two bytes. -/
theorem witness_FireAndForgetCompletes_owed :
    let s : State := { fed with cbuf := [1], respOwed := 2 }
    ((Instr.writeEnable, [0x06]) : Instr × Bytes) ∈
      ([(.powerUp, [0xAB]), (.powerDown, [0xB9]), (.writeEnable, [0x06]), (.bulkErase, [0xC7]),
        (.sectorErase 0, [0xD8] ++ addrBytes 0)] : List (Instr × Bytes)) ∧
    Ready s ∧ s.fault.kind = none ∧ s.pinsValid = true ∧ ¬ Overflows s 10 0 ∧ s.txReplies = .ok :: [.ok] ∧
      ([0xFF, 0xEF] : Bytes).length = s.respOwed ∧ s.rx = ([0xFF, 0xEF] : Bytes).map .byte ++ [.byte 0x40, .byte 0x18] ∧
      0 < s.respOwed :=
  ⟨by decide, fed_ready, rfl, rfl, by decide, rfl, rfl, rfl, by decide⟩
/-- The clean-up case: `POWER_DOWN` while faulted. -/
theorem witness_FireAndForgetCompletes_cleanup :
    let s : State := { fed with fault := ⟨some .waitTimeout, 150, 100⟩ }
    Ready s ∧ s.fault.kind ≠ none ∧ s.pinsValid = true ∧ ¬ Overflows s 10 0 ∧ s.txReplies = .ok :: [.ok] ∧
      ([] : Bytes).length = s.respOwed ∧ s.rx = ([] : Bytes).map .byte ++ s.rx ∧ s.respOwed = 0 :=
  ⟨fed_ready, by decide, rfl, by decide, rfl, rfl, rfl, rfl⟩
/-- Below, at both ends of, and above the range of the count. -/
theorem witness_PaceCountIsClampedQuotient :
    1 * 1000000 / 8000000 < 1 ∧ 8 * 1000000 / 8000000 = 1 ∧ 87382 * 6000000 / 8000000 = 65536 ∧
      65536 < 87384 * 6000000 / 8000000 := by decide
/-- A read that ends exactly at the top of the address space (V53). -/
theorem witness_ReadReturnsTheData :
    let s : State := { fed with rx := [.byte 0, .byte 0, .byte 0, .byte 0, .byte 0x12, .byte 0x34] }
    Ready s ∧ s.fault.kind = none ∧ s.pinsValid = true ∧ 1 ≤ (2 : BitVec 17).toNat ∧ (2 : BitVec 17).toNat ≤ 65532 ∧
      (0xFFFFFE : BitVec 24).toNat + (2 : BitVec 17).toNat ≤ 2 ^ 24 ∧
      ¬ Overflows s ((2 : BitVec 17).toNat + 13) (4 + (2 : BitVec 17).toNat) ∧ s.txReplies = .ok :: [.ok] ∧
      ([] : Bytes).length = s.respOwed ∧ ([0, 0, 0, 0] : Bytes).length = 4 ∧
      ([0x12, 0x34] : Bytes).length = (2 : BitVec 17).toNat ∧
      s.rx = ([] ++ [0, 0, 0, 0] ++ [0x12, 0x34] : Bytes).map .byte ++ [] :=
  ⟨fed_ready, rfl, rfl, by decide, by decide, by decide, by decide, rfl, rfl, rfl, rfl, rfl⟩
theorem witness_PollReadReply :
    (polled 1).resetPin = false ∧ (polled 1).spuState = .pollRx ∧ (polled 1).respOwed = (polled 1).base + 2 ∧
      ([] : Bytes).length = (polled 1).base ∧ (polled 1).rx = ([] ++ [0xFF, 1] : Bytes).map .byte ++ [] ∧
      (1 : Byte).getLsbD 0 = true ∧ (0xFE : Byte).getLsbD 0 = false := by decide
/-- Elapsed at the budget after the interval, and past it. -/
theorem witness_WakeReply :
    (asleep 50 100).resetPin = false ∧ (asleep 50 100).spuState = .sleep ∧ (asleep 50 100).wakes = 0 + 1 ∧
      (asleep 50 100).elapsedMs.toNat ≤ (asleep 50 100).budgetMs.toNat ∧
      (asleep 100 100).elapsedMs.toNat ≤ (asleep 100 100).budgetMs.toNat := by decide
theorem witness_WaitNeverOkWhileBusy :
    (polled 0).resetPin = false ∧ (polled 0).spuState ≠ .idle ∧ (∃ t, step (polled 0) = .next t ∧ t.spuState = .idle) ∧
      Inv (polled 0) :=
  ⟨rfl, by decide, ⟨_, rfl, rfl⟩, by constructor <;> decide⟩

/-- V63 with the transport's answers waiting: three busy polls. -/
def busyThrice : State :=
  { ready with
    txReplies := [.ok, .ok, .ok], wakes := 3,
    rx := [.byte 0xFF, .byte 1, .byte 0xFF, .byte 1, .byte 0xFF, .byte 1] }

theorem witness_WaitTimesOutAfterAllPolls :
    let polls : List (Byte × Byte) := [(0xFF, 1), (0xFF, 1), (0xFF, 1)]
    Ready busyThrice ∧ busyThrice.fault.kind = none ∧ busyThrice.pinsValid = true ∧ (50 : BitVec 32) ≠ 0 ∧
      ¬ Overflows busyThrice 11 2 ∧ ([] : Bytes).length = busyThrice.respOwed ∧ polls.length = maxPolls 50 100 ∧
      (∀ p ∈ polls, p.2.getLsbD 0 = true) ∧ busyThrice.txReplies = List.replicate polls.length .ok ++ [] ∧
      busyThrice.rx = ([] : Bytes).map .byte ++ polls.flatMap pollBytesIn ++ [] ∧ busyThrice.wakes = polls.length + 0 :=
  ⟨⟨rfl, rfl, rfl⟩, rfl, rfl, by decide, by decide, rfl, by decide, by simp, rfl, rfl, rfl⟩
/-- V66 behind a deferred transfer that owes two bytes. -/
theorem witness_WaitTimesOutAfterAllPolls_deferred :
    let s : State :=
      { ready with
        cbuf := [1], respOwed := 2, txReplies := [.ok], wakes := 1,
        rx := [.byte 0xFF, .byte 2, .byte 0xFF, .byte 1] }
    let polls : List (Byte × Byte) := [(0xFF, 1)]
    Ready s ∧ s.fault.kind = none ∧ s.pinsValid = true ∧ (50 : BitVec 32) ≠ 0 ∧ ¬ Overflows s 11 2 ∧
      ([0xFF, 2] : Bytes).length = s.respOwed ∧ polls.length = maxPolls 50 0 ∧ (∀ p ∈ polls, p.2.getLsbD 0 = true) ∧
      s.txReplies = List.replicate polls.length .ok ++ [] ∧
      s.rx = ([0xFF, 2] : Bytes).map .byte ++ polls.flatMap pollBytesIn ++ [] ∧ s.wakes = polls.length + 0 :=
  ⟨⟨rfl, rfl, rfl⟩, rfl, rfl, by decide, by decide, rfl, by decide, by simp, rfl, rfl, rfl⟩
/-- V62: two busy polls, and the last allowed one is not. -/
theorem witness_WaitReturnsOkWhenReady :
    let s : State :=
      { busyThrice with wakes := 2, rx := [.byte 0xFF, .byte 3, .byte 0xFF, .byte 3, .byte 0xFF, .byte 2] }
    let polls : List (Byte × Byte) := [(0xFF, 3), (0xFF, 3)]
    Ready s ∧ s.fault.kind = none ∧ s.pinsValid = true ∧ (50 : BitVec 32) ≠ 0 ∧ ¬ Overflows s 11 2 ∧
      ([] : Bytes).length = s.respOwed ∧
      polls.length < maxPolls 50 100 ∧ (∀ p ∈ polls, p.2.getLsbD 0 = true) ∧ (2 : Byte).getLsbD 0 = false ∧
      s.txReplies = List.replicate (polls.length + 1) .ok ++ [] ∧
      s.rx = ([] : Bytes).map .byte ++ polls.flatMap pollBytesIn ++ pollBytesIn (0xFF, 2) ++ [] ∧ s.wakes = polls.length + 0 :=
  ⟨⟨rfl, rfl, rfl⟩, rfl, rfl, by decide, by decide, rfl, by decide, by simp, by decide, rfl, rfl, rfl⟩
/-- Ready at the first poll (V67), behind a deferred transfer that owes two bytes. -/
theorem witness_WaitReturnsOkWhenReady_deferred :
    let s : State :=
      { ready with cbuf := [1], respOwed := 2, txReplies := [.ok], rx := [.byte 0xFF, .byte 2, .byte 0xFF, .byte 0xFE] }
    let polls : List (Byte × Byte) := []
    Ready s ∧ s.fault.kind = none ∧ s.pinsValid = true ∧ (50 : BitVec 32) ≠ 0 ∧ ¬ Overflows s 11 2 ∧
      ([0xFF, 2] : Bytes).length = s.respOwed ∧ polls.length < maxPolls 50 0 ∧ (∀ p ∈ polls, p.2.getLsbD 0 = true) ∧
      (0xFE : Byte).getLsbD 0 = false ∧ s.txReplies = List.replicate (polls.length + 1) .ok ++ [] ∧
      s.rx = ([0xFF, 2] : Bytes).map .byte ++ polls.flatMap pollBytesIn ++ pollBytesIn (0xFF, 0xFE) ++ [] ∧
      s.wakes = polls.length + 0 :=
  ⟨⟨rfl, rfl, rfl⟩, rfl, rfl, by decide, by decide, rfl, by decide, by simp, by decide, rfl, rfl, rfl⟩
/-- The wait of V63 asleep after its first poll, with every reply it can still need. -/
theorem witness_WaitEndsIfAnswered :
    let s : State := { busyThrice with spuState := .sleep, pollMs := 50, budgetMs := 100 }
    Inv s ∧ s.resetPin = false ∧ s.spuState ≠ .idle ∧ maxPolls s.pollMs s.budgetMs ≤ s.txReplies.length ∧
      maxPolls s.pollMs s.budgetMs ≤ s.wakes ∧ s.respOwed + 2 * maxPolls s.pollMs s.budgetMs ≤ s.rx.length :=
  ⟨by constructor <;> decide, rfl, by decide, by decide, by decide, by decide⟩
theorem witness_FaultGate :
    let s : State := { ready with fault := ⟨some .waitTimeout, 150, 100⟩ }
    s.fault.kind ≠ none ∧ Instr.flush ≠ .powerDown ∧ isReservedInstr .flush = false ∧
      isReservedInstr (.reserved12 0 0 []) = true ∧ ∃ t, exec .powerDown { s with fault := ⟨none, 0, 0⟩ } = .next t :=
  ⟨by decide, by decide, rfl, rfl, _, rfl⟩
theorem witness_RefusalChangesOnlyResult :
    State.reset.busy = false ∧ ∃ t, exec .csSelect State.reset = .next t ∧ t.busy = false ∧ t.result = .refused .notConfigured :=
  ⟨rfl, _, rfl, rfl, rfl⟩
theorem witness_DeferredMakesNoCall : isDeferred .csSelect = true ∧ ∃ t, exec .csSelect ready = .next t := ⟨rfl, _, rfl⟩
theorem witness_ControlRegisterReads : Inv ready ∧ 9 ≤ 9 := ⟨ready_inv, by decide⟩
theorem witness_RefusalCodes : (Reason.zeroPoll, 9) ∈ reasonNumbers ∧ Reason.zeroPoll.code = Reason.zeroPoll.code := by decide
theorem witness_SpiCommandsMeaning :
    ((Instr.spiReadStatus 0xFF, inTxn ready [0x05, 0xFF], 2) : Instr × Bytes × Nat) ∈
      ([(.spiIdentify 0xFF 0 0, inTxn ready [0x9F, 0xFF, 0, 0], 4), (.spiPowerUp, outTxn ready [0xAB], 0),
        (.spiPowerDown, outTxn ready [0xB9], 0), (.spiWriteEnable, outTxn ready [0x06], 0),
        (.spiBulkErase, outTxn ready [0xC7], 0), (.spiSectorErase64k 0, outTxn ready ([0xD8] ++ addrBytes 0), 0),
        (.spiReadStatus 0xFF, inTxn ready [0x05, 0xFF], 2)] : List (Instr × Bytes × Nat)) := by simp

/-! Each arm of a meaning's chain is reached, at the values where arms meet. -/

theorem witness_CfgClockMeaning :
    resultOf (.cfgClock 0) ready = .refused .badConfig ∧ resultOf (.cfgClock 1) ready = .ok [] := by decide
theorem witness_DataOutMeaning :
    resultOf (.dataOut 0) ready = .refused .badLength ∧ resultOf (.dataOut 1) ready = .ok [] ∧
      resultOf (.dataOut 65536) ready = .ok [] ∧ resultOf (.dataOut 65537) ready = .refused .badLength := by decide
theorem witness_DataOutInMeaning :
    resultOf (.dataOutIn 65536) { ready with respOwed := 65536 } = .ok [] ∧
      resultOf (.dataOutIn 65536) { ready with respOwed := 65537 } = .refused .cbufOverflow := by decide
theorem witness_WaitMaskMeaning :
    resultOf (.waitMask 65536) ready = .ok [] ∧ resultOf (.waitMask 65537) ready = .refused .badLength := by decide
theorem witness_BytesMeaning :
    resultOf (.bytes []) ready = .refused .badLength ∧ resultOf (.bytes [0]) ready = .ok [] := by decide
/-- V44 and V45: the last offset of a page. -/
theorem witness_ProgramPageMeaning :
    resultOf (.programPage 0x0000FF [0x5A]) ready = .ok [] ∧
      resultOf (.programPage 0x0000FF [0x5A, 0x5B]) ready = .refused .pageCross ∧
      resultOf (.programPage 0x0000FF []) ready = .refused .badLength := by decide
theorem witness_ProgramPagePaceMeaning :
    resultOf (.programPagePace 0x0000FF [0x5A] 800) ready = .refused .notConfigured ∧
      resultOf (.programPagePace 0x0000FF [0x5A] 800) { ready with sckHz := 1 } = .ok [] := by decide
/-- V53, V54 and V56: the top of the address space, and the ends of the count. -/
theorem witness_ReadMeaning :
    (after (exec (.read 0xFFFFFE 2) ready)).flush = .writing ∧ resultOf (.read 0xFFFFFF 2) ready = .refused .addrRange ∧
      resultOf (.read 0 65533) ready = .refused .badLength ∧ resultOf (.read 0 0) ready = .refused .badLength := by decide
theorem witness_WaitReadyMeaning :
    resultOf (.waitReady 0 0) ready = .refused .zeroPoll ∧ (after (exec (.waitReady 1 0) ready)).spuState = .pollTx := by decide

end Sys2Proof.Tests
end

section
/-! PROOFS. What a step does in reset and with an offer accepted, and what reset leaves (R41, R74, R190, R192). -/

namespace Sys2Proof.Machine
open Sys2Proof.Spec

variable {s : State}

theorem step_of_reset (h : s.resetPin = true) : step s = .next s.applyReset := if_pos h

theorem step_of_ready {o : Offer} {rest : List Offer} {i : Instr} (h : Ready s) (ho : s.offers = o :: rest)
    (hd : decode o = .ok i) : step s = exec i (s.accept o rest) := by
  obtain ⟨hr, hs, hf⟩ := h
  simp [step, hr, hs, hf, ho, hd]

/-! ### Reset -/

theorem hasResetValues_reset : HasResetValues State.reset :=
  ⟨rfl, rfl, rfl, rfl, rfl, rfl, rfl, rfl, rfl, rfl, rfl, rfl⟩

theorem hasResetValues_applyReset (s : State) : HasResetValues s.applyReset := hasResetValues_reset

/-! What the environment keeps of the abandoned call (R190; log 13). -/

theorem State.abandonCall_of_none (h : s.call = none) : s.abandonCall = s := by
  simp [State.abandonCall, h]

theorem State.abandonCall_of_txWrite {p : Bytes} (h : s.call = some (.txWrite p)) :
    s.abandonCall = { s with txReplies := s.txReplies.tail } := by
  simp [State.abandonCall, h]

theorem State.abandonCall_of_txRead_answered {n : Nat} {r : RxReply} {rest : List RxEvent} (h : s.call = some (.txRead n))
    (hc : collect n s.rx = some (r, rest)) : s.abandonCall = { s with rx := rest } := by
  simp [State.abandonCall, h, hc]

theorem State.abandonCall_of_txRead_unanswered {n : Nat} (h : s.call = some (.txRead n)) (hc : collect n s.rx = none) :
    s.abandonCall = s := by
  simp [State.abandonCall, h, hc]

theorem State.abandonCall_of_sleep {ms : BitVec 32} (h : s.call = some (.sleep ms)) :
    s.abandonCall = { s with wakes := s.wakes - 1 } := by
  simp [State.abandonCall, h]

theorem State.applyReset_environment_given {env : Environment} {rest : List Environment} (h : s.afterReset = env :: rest) :
    s.applyReset.environment = env ∧ s.applyReset.afterReset = rest := by
  simp [State.environmentAfterReset_given s env rest h, h]

theorem State.applyReset_environment_goes_on (h : s.afterReset = []) :
    s.applyReset.environment = s.abandonCall.environment := by
  simp [State.environmentAfterReset_goes_on s h]

end Sys2Proof.Machine
end

section
/-! PROOFS. The control registers, bit by bit and field by field (R23, R33, R36). -/

namespace Sys2Proof.Machine
open Sys2Proof.Spec

theorem State.busy_iff (s : State) : s.busy = true ↔ s.spuState ≠ .idle ∨ s.flush ≠ .idle := by
  simp [State.busy]

theorem State.faulted_iff (s : State) : s.faulted = true ↔ s.fault.kind ≠ none := by
  simp [State.faulted, Option.isSome_iff_ne_none]

theorem State.cleanupFaulted_iff (s : State) : s.cleanupFaulted = true ↔ s.cleanupFault.kind ≠ none := by
  simp [State.cleanupFaulted, Option.isSome_iff_ne_none]

theorem State.clkValid_iff (s : State) : s.clkValid = true ↔ s.sckHz ≠ 0 := by
  simp [State.clkValid]

theorem SpuState.code_eq_spuNumber (u : SpuState) : u.code = spuNumber u := by cases u <;> rfl

theorem FaultReg.code_eq_faultNumber (f : FaultReg) : f.code = faultNumber f.kind := by
  unfold FaultReg.code
  cases f.kind with
  | none => rfl
  | some k => cases k <;> rfl

/-- Where each bit of `CR2` comes from (R36). -/
theorem State.getLsbD_statusWord (s : State) (i : Nat) :
    s.statusWord.getLsbD i =
      if i < 1 then (BitVec.ofBool s.busy).getLsbD i
      else if i < 2 then (BitVec.ofBool s.faulted).getLsbD (i - 1)
      else if i < 3 then (BitVec.ofBool s.cleanupFaulted).getLsbD (i - 2)
      else if i < 4 then (BitVec.ofBool s.pinsValid).getLsbD (i - 3)
      else if i < 5 then (BitVec.ofBool s.clkValid).getLsbD (i - 4)
      else if i < 6 then (BitVec.ofBool s.statusValid).getLsbD (i - 5)
      else if i < 8 then s.spuState.code.getLsbD (i - 6) else s.statusByte.getLsbD (i - 8) := by
  show BitVec.getLsbD (w := 8 + 2 + 1 + 1 + 1 + 1 + 1 + 1) (s.statusByte ++ s.spuState.code ++ BitVec.ofBool s.statusValid
    ++ BitVec.ofBool s.clkValid ++ BitVec.ofBool s.pinsValid ++ BitVec.ofBool s.cleanupFaulted ++ BitVec.ofBool s.faulted
    ++ BitVec.ofBool s.busy) i = _
  have hlt : ∀ k c : Nat, 0 < c → (i - k < c ↔ i < k + c) := by omega
  simp only [BitVec.getLsbD_append, Nat.sub_sub]
  simp only [hlt, Nat.zero_lt_succ, Nat.reduceAdd]

/-- Where each bit of `CR0` comes from (R23). -/
theorem State.getLsbD_pincfg (s : State) (i : Nat) :
    s.pincfg.getLsbD i =
      if i < 8 then s.dirMask.getLsbD i else if i < 16 then s.valSelect.getLsbD (i - 8)
      else if i < 24 then s.valDeselect.getLsbD (i - 16) else (BitVec.ofBool s.pinsValid).getLsbD (i - 24) := by
  show BitVec.getLsbD (w := 1 + 8 + 8 + 8) (BitVec.ofBool s.pinsValid ++ s.valDeselect ++ s.valSelect ++ s.dirMask) i = _
  have hlt : ∀ k c : Nat, 0 < c → (i - k < c ↔ i < k + c) := by omega
  simp only [BitVec.getLsbD_append, Nat.sub_sub]
  simp only [hlt, Nat.zero_lt_succ, Nat.reduceAdd]

/-- Where each bit of `CR8` comes from (R33). -/
theorem State.getLsbD_lastStatus (s : State) (i : Nat) :
    s.lastStatus.getLsbD i =
      if i < 8 then s.statusByte.getLsbD i else (BitVec.ofBool s.statusValid).getLsbD (i - 8) :=
  BitVec.getLsbD_append

theorem getLsbD_ofBool_zero (b : Bool) : (BitVec.ofBool b).getLsbD 0 = b := by cases b <;> rfl

theorem State.statusWord_busy (s : State) : s.statusWord.getLsbD 0 = s.busy :=
  (s.getLsbD_statusWord 0).trans (getLsbD_ofBool_zero _)

theorem State.statusWord_faulted (s : State) : s.statusWord.getLsbD 1 = s.faulted :=
  (s.getLsbD_statusWord 1).trans (getLsbD_ofBool_zero _)

theorem State.statusWord_cleanupFaulted (s : State) : s.statusWord.getLsbD 2 = s.cleanupFaulted :=
  (s.getLsbD_statusWord 2).trans (getLsbD_ofBool_zero _)

theorem State.statusWord_pinsValid (s : State) : s.statusWord.getLsbD 3 = s.pinsValid :=
  (s.getLsbD_statusWord 3).trans (getLsbD_ofBool_zero _)

theorem State.statusWord_clkValid (s : State) : s.statusWord.getLsbD 4 = s.clkValid :=
  (s.getLsbD_statusWord 4).trans (getLsbD_ofBool_zero _)

theorem State.statusWord_statusValid (s : State) : s.statusWord.getLsbD 5 = s.statusValid :=
  (s.getLsbD_statusWord 5).trans (getLsbD_ofBool_zero _)

theorem State.pincfg_pinsValid (s : State) : s.pincfg.getLsbD 24 = s.pinsValid :=
  (s.getLsbD_pincfg 24).trans (getLsbD_ofBool_zero _)

theorem State.lastStatus_statusValid (s : State) : s.lastStatus.getLsbD 8 = s.statusValid :=
  (s.getLsbD_lastStatus 8).trans (getLsbD_ofBool_zero _)

/-- A field of a register is what its bits are. -/
theorem extractLsb'_eq_of_getLsbD {w start len : Nat} {x : BitVec w} {y : BitVec len}
    (h : ∀ i < len, x.getLsbD (start + i) = y.getLsbD i) : x.extractLsb' start len = y :=
  BitVec.eq_of_getLsbD_eq fun i hi => by simp [hi, h i hi]

theorem State.statusWord_spuState (s : State) : s.statusWord.extractLsb' 6 2 = s.spuState.code :=
  extractLsb'_eq_of_getLsbD fun i hi => by
    simp (disch := omega) only [State.getLsbD_statusWord, if_pos, if_neg, Nat.add_sub_cancel_left]

theorem State.statusWord_statusByte (s : State) : s.statusWord.extractLsb' 8 8 = s.statusByte :=
  extractLsb'_eq_of_getLsbD fun i hi => by
    simp (disch := omega) only [State.getLsbD_statusWord, if_neg, Nat.add_sub_cancel_left]

theorem State.pincfg_dirMask (s : State) : s.pincfg.extractLsb' 0 8 = s.dirMask :=
  extractLsb'_eq_of_getLsbD fun i hi => by
    simp (disch := omega) only [State.getLsbD_pincfg, if_pos, Nat.zero_add]

theorem State.pincfg_valSelect (s : State) : s.pincfg.extractLsb' 8 8 = s.valSelect :=
  extractLsb'_eq_of_getLsbD fun i hi => by
    simp (disch := omega) only [State.getLsbD_pincfg, if_pos, if_neg, Nat.add_sub_cancel_left]

theorem State.pincfg_valDeselect (s : State) : s.pincfg.extractLsb' 16 8 = s.valDeselect :=
  extractLsb'_eq_of_getLsbD fun i hi => by
    simp (disch := omega) only [State.getLsbD_pincfg, if_pos, if_neg, Nat.add_sub_cancel_left]

theorem State.lastStatus_statusByte (s : State) : s.lastStatus.extractLsb' 0 8 = s.statusByte :=
  extractLsb'_eq_of_getLsbD fun i hi => by
    simp (disch := omega) only [State.getLsbD_lastStatus, if_pos, Nat.zero_add]

theorem toNat_ofNat_of_le_cbufCap {n : Nat} (h : n ≤ Config.cbufCap) : (BitVec.ofNat 18 n).toNat = n :=
  Nat.mod_eq_of_lt (h.trans_lt (by decide))

theorem State.readCR_missing (s : State) {k : Nat} (h : 9 ≤ k) : s.readCR k = .error (.noSuchRegister k) := by
  obtain ⟨j, rfl⟩ := Nat.exists_eq_add_of_le' h
  rfl

end Sys2Proof.Machine
end

section
/-! PROOFS. Every operation of the block keeps the state invariant, and so does every step. -/

namespace Sys2Proof.Machine
open Sys2Proof.Spec

variable {s t : State}

/-! The invariant mentions neither the latch, the port, the environment nor `result`: where an operation changes only
these, each clause is the old one. -/

/-- Each clause is a closed fact of the one reset state. -/
theorem inv_reset : Inv State.reset := by
  constructor <;> decide

theorem inv_applyReset (s : State) : Inv s.applyReset := { inv_reset with }

theorem Inv.accept (h : Inv s) (o : Offer) (rest : List Offer) : Inv (s.accept o rest) := by
  cases o <;> exact { h with }

theorem Inv.refuse (h : Inv s) (reason : Reason) : Inv (s.refuse reason) := { h with }

theorem Inv.setPins (h : Inv s) {dir sel desel : Byte} (hf : s.fault.kind = none)
    (hl : pinsLegal dir sel desel = true) : Inv (s.setPins dir sel desel) :=
  { h with
    pins_legal := fun _ => hl
    wait_allowed := fun _ => ⟨rfl, hf⟩
    faulted_buffer := fun hn => absurd hf hn }

theorem Inv.setClock (h : Inv s) (hz : BitVec 32) : Inv (s.setClock hz) := { h with }

theorem Inv.defer (h : Inv s) {e : Bytes} {r : Nat} (hs : s.spuState = .idle) (hf : s.fault.kind = none) (he : e ≠ [])
    (hc : s.cbuf.length + e.length ≤ Config.cbufCap) (ho : s.respOwed + r ≤ Config.cbufCap) : Inv (s.defer e r) :=
  { h with
    cbuf_le := by simpa using hc
    owed_le := ho
    owed_buffered := by simp [he]
    poll_sent := by simp [hs]
    sleep_empty := by simp [hs]
    flush_sends := by simp [he]
    flush_reads := fun hr => Nat.add_pos_left (h.flush_reads hr) r
    faulted_buffer := fun hn => absurd hf hn }

/-- The flush's start (R53) from a state whose fault gate let it through. -/
theorem Inv.beginFlush (h : Inv s) (hs : s.spuState = .idle) (hf : s.fault.kind = none) (x : Extract) :
    Inv (s.beginFlush x) := by
  by_cases hb : s.cbuf = []
  · rw [State.beginFlush_empty s x hb]
    exact { h with rbuf_le := Nat.zero_le _ }
  · rw [State.beginFlush_sends s x hb]
    exact { h with
      one_request := fun hn => absurd hs hn
      flush_sends := fun _ => hb
      flush_reads := nofun
      faulted_buffer := fun hn => absurd hf hn }

/-- With something appended, an immediate operation ends in the call of `TxWrite` (R53, R75 step 7). -/
theorem State.immediate_eq_writing (s : State) {e : Bytes} (he : e ≠ []) (r : Nat) (x : Extract) :
    s.immediate e r x = writing s e r x :=
  State.beginFlush_sends _ x (by simp [he])

theorem Inv.immediate (h : Inv s) {e : Bytes} {r : Nat} (hs : s.spuState = .idle) (hfl : s.flush = .idle)
    (hgate : s.fault.kind = none ∨ e = s.opcodeBytes Config.spiPowerDown ∧ r = 0) (he : e ≠ [])
    (hc : s.cbuf.length + e.length ≤ Config.cbufCap) (ho : s.respOwed + r ≤ Config.cbufCap) (x : Extract) :
    Inv (s.immediate e r x) := by
  rw [State.immediate_eq_writing s he]
  have hbuf : s.cbuf ++ e ≠ [] := by simp [he]
  exact { h with
    cbuf_le := by simpa [writing] using hc
    owed_le := ho
    owed_buffered := fun _ => hbuf
    one_request := fun hn => absurd hs hn
    poll_sent := by simp [writing, hs]
    sleep_empty := by simp [writing, hs]
    flush_sends := fun _ => hbuf
    flush_reads := nofun
    faulted_buffer := by
      intro hn
      obtain ⟨rfl, rfl⟩ := hgate.resolve_left hn
      obtain ⟨ho0, hb⟩ := h.faulted_buffer hn
      have hempty : s.cbuf = [] := hb.resolve_right (by simp [hfl])
      exact ⟨ho0, .inr ⟨rfl, congrArg (· ++ s.opcodeBytes Config.spiPowerDown) hempty⟩⟩ }

/-- R83. -/
@[simp] theorem State.length_pollBytes (s : State) : s.pollBytes.length = 11 := rfl

theorem Inv.issuePoll (h : Inv s) (hfl : s.flush = .idle) (hint : s.pollMs ≠ 0)
    (hel : s.elapsedMs.toNat ≤ s.budgetMs.toNat ∧ s.pollMs.toNat ∣ s.elapsedMs.toNat)
    (hok : s.pinsValid = true ∧ s.fault.kind = none)
    (hc : s.cbuf.length + s.pollBytes.length ≤ Config.cbufCap) (ho : s.respOwed + 2 ≤ Config.cbufCap) :
    Inv s.issuePoll :=
  have hbuf : s.cbuf ++ s.pollBytes ≠ [] := List.append_ne_nil_of_right_ne_nil _ (txnOutIn_ne_nil _ _)
  { h with
    cbuf_le := by simpa using hc
    owed_le := ho
    owed_buffered := fun _ => hbuf
    one_request := fun _ => hfl
    poll_sent := fun _ => ⟨hbuf, rfl⟩
    sleep_empty := nofun
    wait_interval := fun _ => hint
    wait_elapsed := fun _ => hel
    wait_allowed := fun _ => hok
    flush_sends := fun hn => absurd hfl hn
    flush_reads := fun hr => by simp [hfl] at hr
    faulted_buffer := fun hn => absurd hok.2 hn }

theorem Inv.startWait (h : Inv s) {pollMs budgetMs : BitVec 32} (hs : s.spuState = .idle) (hfl : s.flush = .idle)
    (hok : s.pinsValid = true ∧ s.fault.kind = none) (hint : pollMs ≠ 0)
    (hc : s.cbuf.length + s.pollBytes.length ≤ Config.cbufCap) (ho : s.respOwed + 2 ≤ Config.cbufCap) :
    Inv (s.startWait pollMs budgetMs) :=
  have hlatched : Inv { s with pollMs := pollMs, budgetMs := budgetMs, elapsedMs := 0 } :=
    { h with
      wait_interval := fun hn => absurd hs hn
      wait_elapsed := fun hn => absurd hs hn }
  hlatched.issuePoll hfl hint ⟨Nat.zero_le _, Nat.dvd_zero _⟩ hok hc ho

/-- An accepted instruction keeps the invariant: the block is idle, and each arm of `exec_cases` is one operation above. -/
theorem exec_keeps_inv {i : Instr} (h : Inv s) (hs : s.spuState = .idle) (hfl : s.flush = .idle)
    (hx : exec i s = .next t) : Inv t := by
  rcases exec_cases hx with ⟨r, rfl⟩ | ⟨dir, sel, desel, _, hf, hl, rfl⟩ | ⟨hz, _, _, _, rfl⟩ |
    ⟨e, r, hf, he, hc, ho, rfl⟩ | ⟨_, hf, rfl⟩ | ⟨e, r, x, hgate, _, he, hc, ho, rfl⟩ |
    ⟨p, b, _, hf, hpins, hint, hc, ho, rfl⟩
  · exact h.refuse r
  · exact h.setPins hf hl
  · exact h.setClock hz
  · exact h.defer hs hf he hc ho
  · exact h.beginFlush hs hf .nothing
  · exact h.immediate hs hfl (hgate.imp_right fun ⟨_, hpd, hr, _⟩ => ⟨hpd, hr⟩) he hc ho x
  · exact h.startWait hs hfl ⟨hpins, hf⟩ hint hc ho

/-! ### Replies -/

/-- What ends a transfer (R53, R144, R170): the buffer is emptied and the block is idle, or asleep in its wait. -/
theorem Inv.emptied (h : Inv s) {r : Bytes} (u : SpuState) (f : FlushState) (hr : r.length ≤ Config.cbufCap)
    (hu : u = .idle ∨ u = .sleep ∧ s.spuState ≠ .idle) (hf : f = .idle) :
    Inv { s with rbuf := r, cbuf := [], respOwed := 0, spuState := u, flush := f } :=
  have hwait : u ≠ .idle → s.spuState ≠ .idle := fun hn => (hu.resolve_left hn).2
  { h with
    cbuf_le := Nat.zero_le _
    owed_le := Nat.zero_le _
    owed_buffered := nofun
    rbuf_le := hr
    one_request := fun _ => hf
    poll_sent := by rcases hu with rfl | ⟨rfl, _⟩ <;> nofun
    sleep_empty := fun _ => ⟨rfl, rfl⟩
    wait_interval := fun hn => h.wait_interval (hwait hn)
    wait_elapsed := fun hn => h.wait_elapsed (hwait hn)
    wait_allowed := fun hn => h.wait_allowed (hwait hn)
    flush_sends := fun hn => absurd hf hn
    flush_reads := fun hr => by simp [hf] at hr
    faulted_buffer := fun _ => ⟨rfl, .inl rfl⟩ }

/-- The latches of R170 in a block that is idle with nothing buffered; a timeout comes only while `FAULT` is free (R173). -/
theorem Inv.latchFault (h : Inv s) {kind : FaultKind} {info0 info1 : BitVec 33} (hs : s.spuState = .idle)
    (hb : s.cbuf = []) (ho : s.respOwed = 0) (hk : s.fault.kind = none ∨ kind ≠ .waitTimeout) :
    Inv (s.latchFault kind info0 info1) := by
  rcases latchFault_cases s kind info0 info1 with ⟨_, e⟩ | ⟨hf, _, e⟩ | ⟨_, _, e⟩ <;> rw [e]
  · exact { h with
      wait_allowed := fun hn => absurd hs hn
      fault_clear := nofun
      cleanup_second := fun _ => nofun
      faulted_buffer := fun _ => ⟨ho, .inl hb⟩ }
  · exact { h with
      cleanup_clear := nofun
      cleanup_second := fun _ => hf
      cleanup_transport := fun he => hk.resolve_left hf (Option.some.inj he) }
  · exact h

/-- Fault entry (R170) with its clearing done before its latching. -/
theorem State.raiseFault_eq_latchFault (s : State) (kind : FaultKind) (info0 info1 : BitVec 33) :
    s.raiseFault kind info0 info1 =
      ({ s with cbuf := [], respOwed := 0, spuState := .idle, flush := .idle, result := .fault kind }).latchFault
        kind info0 info1 := by
  unfold State.raiseFault State.latchFault
  dsimp only
  split
  · rfl
  · split <;> rfl

/-- Fault entry asks the invariant only of what its clearing leaves. -/
theorem Inv.raiseFault_of_emptied {kind : FaultKind} (info0 info1 : BitVec 33)
    (h : Inv { s with cbuf := [], respOwed := 0, spuState := .idle, flush := .idle })
    (hk : s.fault.kind = none ∨ kind ≠ .waitTimeout) : Inv (s.raiseFault kind info0 info1) := by
  have hcleared : Inv { s with cbuf := [], respOwed := 0, spuState := .idle, flush := .idle, result := .fault kind } :=
    { h with }
  rw [State.raiseFault_eq_latchFault]
  exact hcleared.latchFault rfl rfl rfl hk

theorem Inv.raiseFault (h : Inv s) {kind : FaultKind} (info0 info1 : BitVec 33)
    (hk : s.fault.kind = none ∨ kind ≠ .waitTimeout) : Inv (s.raiseFault kind info0 info1) :=
  .raiseFault_of_emptied info0 info1 (h.emptied .idle .idle h.rbuf_le (.inl rfl) rfl) hk

/-! The invariant speaks of the block alone: what the environment has still to say may be anything (R56, R57). -/

theorem Inv.withTxReplies (h : Inv s) (replies : List TxReply) : Inv { s with txReplies := replies } := { h with }
theorem Inv.withRx (h : Inv s) (evs : List RxEvent) : Inv { s with rx := evs } := { h with }
theorem Inv.withWakes (h : Inv s) (n : Nat) : Inv { s with wakes := n } := { h with }

/-- A reply to `TxWrite`, if `Ok` is answered in a way that keeps the invariant. -/
theorem Inv.awaitWrite (h : Inv s) {onOk : State → State} (hok : ∀ rest, Inv (onOk { s with txReplies := rest })) :
    Inv (s.awaitWrite onOk) := by
  rcases awaitWrite_cases s onOk with ⟨_, e⟩ | ⟨_, rest, kind, i0, i1, _, _, hk, e⟩ | ⟨rest, _, e⟩ <;> rw [e]
  · exact h
  · exact (h.withTxReplies rest).raiseFault i0 i1 (.inr hk)
  · exact hok rest

/-- A reply to `TxRead(resp_owed)`, if its bytes are answered in a way that keeps the invariant. -/
theorem Inv.awaitRead (h : Inv s) {onBytes : State → Bytes → State}
    (hok : ∀ r rest, r.length ≤ Config.cbufCap → Inv (onBytes { s with rx := rest } r)) :
    Inv (s.awaitRead onBytes) := by
  rcases awaitRead_cases s onBytes with ⟨_, e⟩ | ⟨rest, kind, i1, hk, e⟩ | ⟨r, rest, hc, e⟩ <;> rw [e]
  · exact h
  · exact (h.withRx rest).raiseFault 1 i1 (.inr hk)
  · exact hok r rest ((collect_bytes hc).1.trans_le h.owed_le)

theorem Inv.endFlush (h : Inv s) {r : Bytes} (hs : s.spuState = .idle) (hr : r.length ≤ Config.cbufCap) :
    Inv (s.endFlush r) :=
  { h.emptied s.spuState .idle hr (.inl hs) rfl with }

theorem Inv.onFlushWrite (h : Inv s) (hs : s.spuState = .idle) (hfl : s.flush = .writing) : Inv s.onFlushWrite := by
  refine h.awaitWrite fun rest => ?_
  have htaken := h.withTxReplies rest
  have hbuf : s.cbuf ≠ [] := h.flush_sends (by simp [hfl])
  dsimp only
  split
  · exact htaken.endFlush hs (Nat.zero_le _)
  · next howed =>
    exact { htaken with
      one_request := fun hn => absurd hs hn
      flush_sends := fun _ => hbuf
      flush_reads := fun _ => Nat.pos_of_ne_zero howed
      faulted_buffer := fun hn => absurd (h.faulted_buffer hn).1 howed }

theorem Inv.onFlushRead (h : Inv s) (hs : s.spuState = .idle) : Inv s.onFlushRead :=
  h.awaitRead fun _ rest hr => (h.withRx rest).endFlush hs hr

theorem Inv.onPollWrite (h : Inv s) (hs : s.spuState = .pollTx) : Inv s.onPollWrite :=
  have hwait : s.spuState ≠ .idle := by simp [hs]
  h.awaitWrite fun _ =>
    { h with
      one_request := fun _ => h.one_request hwait
      poll_sent := fun _ => h.poll_sent (.inl hs)
      sleep_empty := nofun
      wait_interval := fun _ => h.wait_interval hwait
      wait_elapsed := fun _ => h.wait_elapsed hwait
      wait_allowed := fun _ => h.wait_allowed hwait }

theorem Inv.onPollRead (h : Inv s) (hs : s.spuState = .pollRx) : Inv s.onPollRead := by
  have hwait : s.spuState ≠ .idle := by simp [hs]
  refine h.awaitRead fun r rest hr => ?_
  rcases busyTest_cases (({ s with rx := rest } : State).storePoll r) with ⟨_, e⟩ | ⟨_, e⟩ <;> rw [e]
  · exact { h.emptied .sleep s.flush hr (.inr ⟨rfl, hwait⟩) (h.one_request hwait) with }
  · exact { h.emptied .idle s.flush hr (.inl rfl) (h.one_request hwait) with }

/-- `elapsed_ms` after one more sleep (R146). -/
def State.nextElapsed (s : State) : BitVec 33 := s.elapsedMs + s.pollMs.setWidth 33

/-- The addition of R146 does not wrap while the wait is within its budget (R32). -/
theorem State.toNat_nextElapsed (h : s.elapsedMs.toNat ≤ s.budgetMs.toNat) :
    s.nextElapsed.toNat = s.elapsedMs.toNat + s.pollMs.toNat := by
  have hb := s.budgetMs.isLt
  have hp := s.pollMs.isLt
  rw [State.nextElapsed, BitVec.toNat_add, BitVec.toNat_setWidth]
  omega

/-- What a `Wake` does (R146): past the budget the wait times out, else the next poll is issued. -/
theorem afterSleep_cases (s : State) :
    (s.budgetMs.toNat < s.nextElapsed.toNat ∧
      s.afterSleep = ({ s with elapsedMs := s.nextElapsed }).raiseFault .waitTimeout s.nextElapsed
        (s.budgetMs.setWidth 33)) ∨
    (s.nextElapsed.toNat ≤ s.budgetMs.toNat ∧ s.afterSleep = ({ s with elapsedMs := s.nextElapsed }).issuePoll) := by
  have hbudget : (s.budgetMs.setWidth 33).toNat = s.budgetMs.toNat := BitVec.toNat_setWidth_of_le (by decide)
  rw [← hbudget, ← BitVec.lt_def, ← Nat.not_lt, ← BitVec.lt_def]
  by_cases hlate : s.budgetMs.setWidth 33 < s.nextElapsed
  · exact .inl ⟨hlate, if_pos hlate⟩
  · exact .inr ⟨hlate, if_neg hlate⟩

theorem Inv.afterSleep (h : Inv s) (hs : s.spuState = .sleep) : Inv s.afterSleep := by
  have hwait : s.spuState ≠ .idle := by simp [hs]
  obtain ⟨hwithin, hdvd⟩ := h.wait_elapsed hwait
  obtain ⟨hbuf, howed⟩ := h.sleep_empty hs
  have hok := h.wait_allowed hwait
  rcases afterSleep_cases s with ⟨_, e⟩ | ⟨hnext, e⟩ <;> rw [e]
  · refine .raiseFault_of_emptied _ _ ?_ (.inl hok.2)
    exact { h.emptied .idle .idle h.rbuf_le (.inl rfl) rfl with wait_elapsed := fun hn => absurd rfl hn }
  · have hdvd' : s.pollMs.toNat ∣ s.nextElapsed.toNat := by
      rw [State.toNat_nextElapsed hwithin]
      exact hdvd.add (Nat.dvd_refl _)
    have hwoken : Inv { s with elapsedMs := s.nextElapsed } := { h with wait_elapsed := fun _ => ⟨hnext, hdvd'⟩ }
    refine hwoken.issuePoll (h.one_request hwait) (h.wait_interval hwait) ⟨hnext, hdvd'⟩ hok ?_ ?_
    · simp [hbuf, Config.cbufCap]
    · simp [howed, Config.cbufCap]

theorem Inv.onSleep (h : Inv s) (hs : s.spuState = .sleep) : Inv s.onSleep := by
  rcases onSleep_cases s with ⟨_, e⟩ | ⟨k, _, e⟩ <;> rw [e]
  · exact h
  · exact (h.withWakes k).afterSleep hs

theorem step_keeps_inv (h : Inv s) (hx : step s = .next t) : Inv t := by
  rcases step_cases hx with ⟨_, rfl⟩ | ⟨_, hs, rfl⟩ | ⟨_, hs, rfl⟩ | ⟨_, hs, rfl⟩ | ⟨_, hs, hfl, rfl⟩ | ⟨_, hs, _, rfl⟩ |
    ⟨_, _, _, _, rfl⟩ | ⟨_, hs, hfl, o, rest, i, _, _, hexec⟩ | ⟨_, _, _, o, rest, _, _, _, rfl⟩
  · exact inv_applyReset s
  · exact h.onPollWrite hs
  · exact h.onPollRead hs
  · exact h.onSleep hs
  · exact h.onFlushWrite hs hfl
  · exact h.onFlushRead hs
  · exact h
  · exact exec_keeps_inv (h.accept o rest) (by simp [hs]) (by simp [hfl]) hexec
  · exact (h.accept o rest).refuse .illegalRequest

end Sys2Proof.Machine
end

section
/-! PROOFS. The statements about the state, settled. -/

namespace Sys2Proof.Proofs
open Sys2Proof.Machine Sys2Proof.Spec

/-- Settles O17, by the cases of a step. -/
theorem stepKeepsTheStateInvariant : Obligations.StepKeepsTheStateInvariant :=
  fun _ _ h hx => step_keeps_inv h hx

/-- Settles O8: `accept` is the arrival of the offer, whose three forms are the arms of the statement. -/
theorem stepRunsTheDecodedInstruction : Obligations.StepRunsTheDecodedInstruction := by
  intro s o rest i hready ho hd
  rw [step_of_ready hready ho hd]
  cases o <;> rfl

/-- Settles O14: every field of `State.reset` that R41 gives a value is written with it. -/
theorem resetGivesTheListedValues : Obligations.ResetGivesTheListedValues :=
  hasResetValues_reset

/-- Settles O15: the state after is `applyReset`; its environment is the given one, or what abandoning each kind of call
leaves. -/
theorem resetInputFromAnyState : Obligations.ResetInputFromAnyState := by
  intro s hr
  refine ⟨s.applyReset, step_of_reset hr, hasResetValues_applyReset s, rfl, rfl, rfl, rfl,
    fun env rest h => State.applyReset_environment_given h, fun h => ?_⟩
  rw [State.applyReset_environment_goes_on h]
  refine ⟨by simp [h], fun hc => ?_, fun p hc => ?_, fun n r rest hc hcollect => ?_, fun n hc hcollect => ?_, fun ms hc => ?_⟩
  · rw [State.abandonCall_of_none hc]
  · rw [State.abandonCall_of_txWrite hc]; rfl
  · rw [State.abandonCall_of_txRead_answered hc hcollect]; rfl
  · rw [State.abandonCall_of_txRead_unanswered hc hcollect]
  · rw [State.abandonCall_of_sleep hc]; rfl

/-- Settles O18. -/
theorem resetHasTheStateInvariant : Obligations.ResetHasTheStateInvariant := inv_reset

/-- Settles O53, from the place of each bit in `statusWord`. -/
theorem statusRegisterBits : Obligations.StatusRegisterBits := by
  refine ⟨by decide, fun s => ⟨s.statusWord, rfl, ?_, ?_, ?_, s.statusWord_pinsValid, ?_, s.statusWord_statusValid, ?_,
    s.statusWord_statusByte⟩⟩
  · rw [s.statusWord_busy, s.busy_iff]
  · rw [s.statusWord_faulted, s.faulted_iff]
  · rw [s.statusWord_cleanupFaulted, s.cleanupFaulted_iff]
  · rw [s.statusWord_clkValid, s.clkValid_iff]
  · rw [s.statusWord_spuState, SpuState.code_eq_spuNumber]

/-- Settles O54: the two packed registers field by field; the invariant's bounds make the two lengths fit 18 bits. -/
theorem controlRegisterReads : Obligations.ControlRegisterReads := by
  intro s
  refine ⟨⟨s.pincfg, rfl, s.pincfg_dirMask, s.pincfg_valSelect, s.pincfg_valDeselect, s.pincfg_pinsValid⟩, rfl, ?_, ?_,
    rfl, fun h => ?_, ⟨s.lastStatus, rfl, s.lastStatus_statusByte, s.lastStatus_statusValid⟩,
    fun k hk => s.readCR_missing hk⟩
  · rw [← FaultReg.code_eq_faultNumber]; rfl
  · rw [← FaultReg.code_eq_faultNumber]; rfl
  · exact ⟨s.cbufLen, _, rfl, toNat_ofNat_of_le_cbufCap h.cbuf_le, rfl, toNat_ofNat_of_le_cbufCap h.owed_le⟩

end Sys2Proof.Proofs
end

section
/-! PROOFS. What a step does with a reply of the transport, and while there is none (R53 to R55, R143, R147, R176). -/

namespace Sys2Proof.Machine
open Sys2Proof.Spec

variable {s : State}

/-! ### The call that a step answers -/

theorem step_of_pollTx (hr : s.resetPin = false) (hs : s.spuState = .pollTx) : step s = .next s.onPollWrite := by
  simp [step, hr, hs]

theorem step_of_pollRx (hr : s.resetPin = false) (hs : s.spuState = .pollRx) : step s = .next s.onPollRead := by
  simp [step, hr, hs]

theorem step_of_sleep (hr : s.resetPin = false) (hs : s.spuState = .sleep) : step s = .next s.onSleep := by
  simp [step, hr, hs]

theorem step_of_flush_writing (hr : s.resetPin = false) (hs : s.spuState = .idle) (hf : s.flush = .writing) :
    step s = .next s.onFlushWrite := by
  simp [step, hr, hs, hf]

theorem step_of_flush_reading (hr : s.resetPin = false) (hs : s.spuState = .idle) (hf : s.flush = .reading) :
    step s = .next s.onFlushRead := by
  simp [step, hr, hs, hf]

/-- A poll and a flush differ only in what they do with an `Ok`. -/
theorem step_of_awaitsWrite (h : AwaitsWrite s) : ∃ onOk, step s = .next (s.awaitWrite onOk) := by
  obtain ⟨hr, hs | ⟨hs, hf⟩⟩ := h
  · exact ⟨_, step_of_pollTx hr hs⟩
  · exact ⟨_, step_of_flush_writing hr hs hf⟩

/-- A poll and a flush differ only in what they do with the bytes. -/
theorem step_of_awaitsRead (h : AwaitsRead s) : ∃ onBytes, step s = .next (s.awaitRead onBytes) := by
  obtain ⟨hr, hs | ⟨hs, hf⟩⟩ := h
  · exact ⟨_, step_of_pollRx hr hs⟩
  · exact ⟨_, step_of_flush_reading hr hs hf⟩

/-! ### No reply -/

theorem awaitWrite_held {onOk : State → State} (h : s.txReplies = []) : s.awaitWrite onOk = s := by
  simp [State.awaitWrite, h]

theorem awaitRead_held {onBytes : State → Bytes → State} {got : Bytes} (hlen : got.length < s.respOwed)
    (h : s.rx = got.map .byte) : s.awaitRead onBytes = s := by
  simp [State.awaitRead, h, collect_short hlen]

theorem onSleep_held (h : s.wakes = 0) : s.onSleep = s := by
  simp [State.onSleep, h]

/-! ### Errors -/

/-- Fault entry as R170 writes it out. -/
theorem raiseFault_eq_faultedWith (s : State) (kind : FaultKind) (info0 info1 : BitVec 33) :
    s.raiseFault kind info0 info1 = faultedWith s kind info0 info1 := by
  unfold State.raiseFault faultedWith
  rcases latchFault_cases s kind info0 info1 with ⟨hf, e⟩ | ⟨hf, hc, e⟩ | ⟨hf, hc, e⟩ <;> rw [e]
  · simp [hf]
  · simp [hf, hc]
  · simp [hf, hc]

/-- A legal count is below the length written, and is then reported as it is (R54; log 11). -/
theorem TxReply.error_shortWrite {actual len : Nat} (h : actual < len) :
    (TxReply.shortWrite actual).error len =
      some (.transportShortWrite, BitVec.ofNat 33 actual, BitVec.ofNat 33 len) := by
  rw [TxReply.error, Nat.min_eq_left (Nat.le_sub_one_of_lt h)]

theorem awaitWrite_error {onOk : State → State} {reply : TxReply} {rest : List TxReply} {kind : FaultKind}
    {info0 info1 : BitVec 33} (h : s.txReplies = reply :: rest)
    (he : reply.error s.cbuf.length = some (kind, info0, info1)) :
    s.awaitWrite onOk = faultedWith { s with txReplies := rest } kind info0 info1 := by
  simp [State.awaitWrite, h, he, raiseFault_eq_faultedWith]

/-- An error that comes before all the bytes is the reply, and the bytes before it are gone with it (R55; log 12). -/
theorem collect_error {n : Nat} {got : Bytes} {e : RxEvent} {reads : List RxEvent} {reply : RxReply}
    (hne : ∀ r, reply ≠ .bytes r) (he : ∀ k, collect (k + 1) (e :: reads) = some (reply, reads)) (hlen : got.length < n) :
    collect n (got.map .byte ++ e :: reads) = some (reply, reads) := by
  induction got generalizing n with
  | nil =>
    obtain ⟨k, rfl⟩ := Nat.exists_eq_add_of_lt hlen
    exact he _
  | cons b got ih =>
    obtain ⟨k, rfl⟩ := Nat.exists_eq_add_one.2 (Nat.zero_lt_of_lt hlen)
    have hrest := ih (Nat.lt_of_succ_lt_succ hlen)
    cases reply with
    | bytes r => exact absurd rfl (hne r)
    | disconnected => simp [collect, hrest]
    | driverError code => simp [collect, hrest]

theorem awaitRead_disconnected {onBytes : State → Bytes → State} {got : Bytes} {reads : List RxEvent}
    (hlen : got.length < s.respOwed) (h : s.rx = got.map .byte ++ .disconnected :: reads) :
    s.awaitRead onBytes = faultedWith { s with rx := reads } .transportDisconnected 1 0 := by
  have hc : collect s.respOwed s.rx = some (.disconnected, reads) :=
    h ▸ collect_error nofun (fun _ => rfl) hlen
  simp [State.awaitRead, hc, raiseFault_eq_faultedWith]

theorem awaitRead_driverError {onBytes : State → Bytes → State} {got : Bytes} {code : BitVec 32} {reads : List RxEvent}
    (hlen : got.length < s.respOwed) (h : s.rx = got.map .byte ++ .driverError code :: reads) :
    s.awaitRead onBytes = faultedWith { s with rx := reads } .transportDriverError 1 (code.setWidth 33) := by
  have hc : collect s.respOwed s.rx = some (.driverError code, reads) :=
    h ▸ collect_error nofun (fun _ => rfl) hlen
  simp [State.awaitRead, hc, raiseFault_eq_faultedWith]

/-! ### A flush answered -/

theorem step_poll_write_ok {writes : List TxReply} (hr : s.resetPin = false) (hs : s.spuState = .pollTx)
    (hw : s.txReplies = .ok :: writes) : step s = .next { s with txReplies := writes, spuState := .pollRx } := by
  rw [step_of_pollTx hr hs, State.onPollWrite, awaitWrite_ok hw]

theorem step_flush_write_ok_owing {writes : List TxReply} (hr : s.resetPin = false) (hs : s.spuState = .idle)
    (hf : s.flush = .writing) (hw : s.txReplies = .ok :: writes) (ho : 0 < s.respOwed) :
    step s = .next { s with txReplies := writes, flush := .reading } := by
  rw [step_of_flush_writing hr hs hf, State.onFlushWrite, awaitWrite_ok hw, if_neg ho.ne']

theorem step_flush_write_ok_done {writes : List TxReply} (hr : s.resetPin = false) (hs : s.spuState = .idle)
    (hf : s.flush = .writing) (hw : s.txReplies = .ok :: writes) (ho : s.respOwed = 0) (hx : s.extract = .nothing) :
    step s = .next { s with txReplies := writes, cbuf := [], rbuf := [], flush := .idle, result := .ok [] } := by
  rw [step_of_flush_writing hr hs hf, State.onFlushWrite, awaitWrite_ok hw, if_pos ho]
  simp [State.endFlush, hx, extractData, ho]

theorem step_flush_read_bytes {r data : Bytes} {reads : List RxEvent} (hr : s.resetPin = false)
    (hs : s.spuState = .idle) (hf : s.flush = .reading) (hl : r.length = s.respOwed)
    (hrx : s.rx = r.map .byte ++ reads) (hdata : extractData s.extract s.base r = data) :
    step s = .next { s with
      rx := reads, cbuf := [], respOwed := 0, rbuf := r, flush := .idle, result := .ok data } := by
  rw [step_of_flush_reading hr hs hf, State.onFlushRead, awaitRead_ok hl hrx, ← hdata, State.endFlush]

theorem extractData_nothing (base : Nat) (r : Bytes) : extractData .nothing base r = [] := rfl

theorem extractData_identify {earlier : Bytes} {base : Nat} (h : earlier.length = base) (echo b1 b2 b3 : Byte) :
    extractData .identify base (earlier ++ [echo, b1, b2, b3]) = [b1, b2, b3] := by
  have hdrop : (earlier ++ [echo] ++ [b1, b2, b3]).drop (base + 1) = [b1, b2, b3] := List.drop_left' (by simp [h])
  rw [List.append_cons, extractData, hdrop]
  rfl

theorem extractData_read {earlier echo data : Bytes} {base n : Nat} (hb : earlier.length = base) (he : echo.length = 4)
    (hd : data.length = n) : extractData (.read n) base (earlier ++ echo ++ data) = data := by
  have hdrop : (earlier ++ echo ++ data).drop (base + 4) = data := List.drop_left' (by simp [hb, he])
  rw [extractData, hdrop, ← hd, List.take_length]

/-- R53: the running flush of a request that returns nothing, to its end. -/
theorem flush_nothing_completes {writes : List TxReply} {r : Bytes} {reads : List RxEvent}
    (hr : s.resetPin = false) (hs : s.spuState = .idle) (hf : s.flush = .writing) (hx : s.extract = .nothing)
    (hw : s.txReplies = .ok :: writes) (hl : r.length = s.respOwed) (hrx : s.rx = r.map .byte ++ reads) :
    ∃ u, step s = .next u ∧
      (s.respOwed = 0 → u = { s with
        txReplies := writes, cbuf := [], rbuf := [], flush := .idle, result := .ok [] }) ∧
      (0 < s.respOwed → step u = .next { s with
        txReplies := writes, rx := reads, cbuf := [], respOwed := 0, rbuf := r, flush := .idle, result := .ok [] }) := by
  rcases Nat.eq_zero_or_pos s.respOwed with ho | ho
  · exact ⟨_, step_flush_write_ok_done hr hs hf hw ho hx, fun _ => rfl, fun hpos => absurd ho hpos.ne'⟩
  · exact ⟨_, step_flush_write_ok_owing hr hs hf hw ho, fun hzero => absurd hzero ho.ne',
      fun _ => step_flush_read_bytes hr hs rfl hl hrx (by rw [hx, extractData_nothing])⟩

end Sys2Proof.Machine
end

section
/-! PROOFS. A request as the chain of its checks in the statements' own words (R75, R168), and the bytes it emits (R14, R82). -/

namespace Sys2Proof.Machine
open Sys2Proof.Spec

variable {s t : State} {checks : List Check} {body : State → State}

/-! ### One link of the chain for each kind of check -/

theorem request_next_check {b : Bool} {p : Prop} [Decidable p] (reason : Reason) (hb : b = true ↔ p)
    (h : s.request checks body = .next t) :
    s.request ((b, reason) :: checks) body = .next (if p then refusedWith s reason else t) := by
  rw [request_cons, h, apply_ite Host.Outcome.next]
  exact if_congr hb rfl rfl

theorem request_next_gate (h : s.request checks body = .next t) :
    s.request (s.gate :: checks) body = .next (if s.fault.kind ≠ none then refusedWith s .faulted else t) :=
  request_next_check _ s.faulted_iff h

theorem request_next_needPins (h : s.request checks body = .next t) :
    s.request (s.needPins :: checks) body = .next (if s.pinsValid = false then refusedWith s .notConfigured else t) :=
  request_next_check _ (by simp) h

theorem request_next_countCheck {n max : Nat} (h : s.request checks body = .next t) :
    s.request (countCheck n max :: checks) body = .next (if n = 0 ∨ max < n then refusedWith s .badLength else t) :=
  request_next_check _ (by simp [badCount]) h

theorem request_next_room {e : Bytes} {len r : Nat} (hlen : e.length = len) (h : s.request checks body = .next t) :
    s.request (s.room e r :: checks) body = .next (if Overflows s len r then refusedWith s .cbufOverflow else t) :=
  request_next_check _ (by simp [hlen]) h

theorem room_passes_of_not_overflows {e : Bytes} {len r : Nat} (hlen : e.length = len) (h : ¬ Overflows s len r) :
    (s.room e r).1 = false := by
  rw [room_passes_iff, hlen]
  simpa [Overflows] using h

theorem crossesPage_iff (addr : BitVec 24) (n : Nat) : crossesPage addr n = true ↔ 256 < addr.toNat % 256 + n :=
  decide_eq_true_iff

theorem pastTop_iff (addr : BitVec 24) (n : Nat) : pastTop addr n = true ↔ 2 ^ 24 < addr.toNat + n :=
  decide_eq_true_iff

/-! ### Emissions -/

theorem le16_ofNat (v : Nat) : le16 (BitVec.ofNat 16 v) = [lowByte v, highByte v] := by
  have hlow : (BitVec.ofNat 16 v).extractLsb' 0 8 = lowByte v := by
    apply BitVec.eq_of_toNat_eq
    simp only [lowByte, BitVec.extractLsb'_toNat, BitVec.toNat_ofNat, Nat.shiftRight_zero]
    omega
  have hhigh : (BitVec.ofNat 16 v).extractLsb' 8 8 = highByte v := by
    apply BitVec.eq_of_toNat_eq
    simp only [highByte, BitVec.extractLsb'_toNat, BitVec.toNat_ofNat, Nat.shiftRight_eq_div_pow]
    omega
  rw [le16, hlow, hhigh]

theorem encOut_eq_header (n : Nat) : encOut n = header Config.opcOut n := by
  rw [encOut, countField, le16_ofNat, header]

theorem encOutIn_eq_header (n : Nat) : encOutIn n = header Config.opcOutIn n := by
  rw [encOutIn, countField, le16_ofNat, header]

theorem be24_eq_addrBytes (addr : BitVec 24) : be24 addr = addrBytes addr := by
  have hbyte (k : Nat) : addr.extractLsb' k 8 = BitVec.ofNat 8 (addr.toNat / 2 ^ k) := by
    apply BitVec.eq_of_toNat_eq
    rw [BitVec.extractLsb'_toNat, BitVec.toNat_ofNat, Nat.shiftRight_eq_div_pow]
  rw [be24, hbyte, hbyte, hbyte, addrBytes]
  simp

theorem State.txnOut_eq_outTxn (s : State) (p : Bytes) : s.txnOut p = outTxn s p := by
  rw [State.txnOut, encOut_eq_header]; rfl

theorem State.txnOutIn_eq_inTxn (s : State) (p : Bytes) : s.txnOutIn p = inTxn s p := by
  rw [State.txnOutIn, encOutIn_eq_header]; rfl

@[simp] theorem State.length_txnOut (s : State) (p : Bytes) : (s.txnOut p).length = p.length + 9 := by
  simp [State.txnOut, State.encSelect, State.encDeselect]; omega

@[simp] theorem State.length_txnOutIn (s : State) (p : Bytes) : (s.txnOutIn p).length = p.length + 9 := by
  simp [State.txnOutIn, State.encSelect, State.encDeselect]; omega

theorem cmdAddr_eq_addrBytes (op : Byte) (addr : BitVec 24) (data : Bytes) :
    cmdAddr op addr data = [op] ++ addrBytes addr ++ data := by
  rw [cmdAddr, be24_eq_addrBytes]; rfl

theorem State.readBytes_eq_readTxn (s : State) (addr : BitVec 24) (n : Nat) : s.readBytes addr n = readTxn s addr n := by
  rw [State.readBytes, State.txnOutIn_eq_inTxn, cmdAddr_eq_addrBytes]; rfl

@[simp] theorem State.length_readBytes (s : State) (addr : BitVec 24) (n : Nat) :
    (s.readBytes addr n).length = n + 13 := by
  simp [State.readBytes]

/-! ### The requests -/

theorem exec_flush (s : State) : exec .flush s = s.request [s.gate] fun s => s.beginFlush .nothing := rfl

theorem exec_spiPageProgram (addr : BitVec 24) (data : Bytes) (s : State) :
    exec (.spiPageProgram addr data) s =
      s.request [s.gate, s.needPins, countCheck data.length Config.page, (crossesPage addr data.length, .pageCross),
          s.room (s.txnOut (cmdAddr Config.spiPageProgram addr data)) 0]
        fun t => t.defer (s.txnOut (cmdAddr Config.spiPageProgram addr data)) 0 := rfl

theorem exec_spiRead (addr : BitVec 24) (n : BitVec 17) (s : State) :
    exec (.spiRead addr n) s =
      s.request [s.gate, s.needPins, countCheck n.toNat Config.maxRead, (pastTop addr n.toNat, .addrRange),
          s.room (s.readBytes addr n.toNat) (4 + n.toNat)]
        fun t => t.defer (s.readBytes addr n.toNat) (4 + n.toNat) := rfl

/-- R121 to R125: a command that passes its checks calls `TxWrite` of the buffer with its transaction at the end. -/
theorem fireAndForget_writes {p : Bytes} (hfirst : ∀ c ∈ checks, c.1 = false) (hpins : s.pinsValid = true)
    (hroom : ¬ Overflows s (p.length + 9) 0) :
    s.fireAndForget checks (s.txnOut p) = .next (writing s (outTxn s p) 0 .nothing) := by
  have hpass : ∀ c ∈ checks ++ [s.needPins, s.room (s.txnOut p) 0], c.1 = false := by
    rw [List.forall_mem_append, List.forall_mem_cons, List.forall_mem_singleton]
    exact ⟨hfirst, (needPins_passes_iff s).2 hpins, room_passes_of_not_overflows (s.length_txnOut p) hroom⟩
  rw [State.fireAndForget, request_passes hpass, State.immediate_eq_writing s (txnOut_ne_nil s p),
    State.txnOut_eq_outTxn]

/-- The five commands of R121 to R125, of which `POWER_DOWN` has no fault gate (R171). -/
theorem exec_fireAndForget {i : Instr} {payload : Bytes} {addr : BitVec 24}
    (hi : (i, payload) ∈
      ([(.powerUp, [0xAB]), (.powerDown, [0xB9]), (.writeEnable, [0x06]), (.bulkErase, [0xC7]),
        (.sectorErase addr, [0xD8] ++ addrBytes addr)] : List (Instr × Bytes)))
    (hgate : s.fault.kind = none ∨ i = .powerDown) (hpins : s.pinsValid = true)
    (hroom : ¬ Overflows s (payload.length + 9) 0) :
    exec i s = .next (writing s (outTxn s payload) 0 .nothing) := by
  have gated (hne : i ≠ .powerDown) : ∀ c ∈ [s.gate], c.1 = false := by
    simpa only [List.forall_mem_singleton, gate_passes_iff] using hgate.resolve_right hne
  simp only [List.mem_cons, List.not_mem_nil, or_false, Prod.mk.injEq] at hi
  rcases hi with ⟨rfl, rfl⟩ | ⟨rfl, rfl⟩ | ⟨rfl, rfl⟩ | ⟨rfl, rfl⟩ | ⟨rfl, rfl⟩
  · exact fireAndForget_writes (gated nofun) hpins hroom
  · exact fireAndForget_writes (checks := []) nofun hpins hroom
  · exact fireAndForget_writes (gated nofun) hpins hroom
  · exact fireAndForget_writes (gated nofun) hpins hroom
  · have hcmd : [0xD8] ++ addrBytes addr = cmdAddr Config.spiSectorErase addr [] :=
      ((cmdAddr_eq_addrBytes _ addr []).trans (List.append_nil _)).symm
    rw [hcmd] at hroom ⊢
    exact fireAndForget_writes (gated nofun) hpins hroom

end Sys2Proof.Machine
end

section
/-! PROOFS. The statements about the buffer, the transport and the flush, settled. -/

namespace Sys2Proof.Proofs
open Sys2Proof.Machine Sys2Proof.Spec

/-- Settles O13: each of the three waits keeps its state. -/
theorem noReplyHoldsTheBlock : Obligations.NoReplyHoldsTheBlock := by
  refine fun s => ⟨fun h hw => ?_, fun h got hlen hrx => ?_, fun hr hs hw => ?_⟩
  · obtain ⟨onOk, hstep⟩ := step_of_awaitsWrite h
    rw [hstep, awaitWrite_held hw]
  · obtain ⟨onBytes, hstep⟩ := step_of_awaitsRead h
    rw [hstep, awaitRead_held hlen hrx]
  · rw [step_of_sleep hr hs, onSleep_held hw]

/-- Settles O26: the fault gate, then the two ways a flush begins. -/
theorem flushMeaning : Obligations.FlushMeaning := by
  refine fun s => ⟨rfl, ?_⟩
  rw [exec_flush]
  exact request_next_gate rfl

/-- Settles O27: with the buffer not empty the flush is sent, and `flush_nothing_completes` takes it to its end. -/
theorem flushCompletes : Obligations.FlushCompletes := by
  rintro s writes r reads ⟨hr, hs, hf⟩ hfault hbuf hw hl hrx
  have hexec : exec .flush s = .next (s.beginFlush .nothing) :=
    (exec_flush s).trans (request_passes (by simpa only [List.forall_mem_singleton, gate_passes_iff] using hfault))
  rw [s.beginFlush_sends _ hbuf] at hexec
  obtain ⟨u, hstep, hnone, howed⟩ := flush_nothing_completes
    (s := { s with tx := s.tx ++ [s.cbuf], flush := .writing, extract := .nothing }) hr hs rfl rfl hw hl hrx
  refine ⟨_, u, hexec, hstep, fun ho => ?_, fun ho => ?_⟩
  · simp [hnone ho, hf]
  · simp [howed ho, hf]

/-- Settles O28. -/
theorem writeReplyOk : Obligations.WriteReplyOk :=
  fun _ _ hr hw => ⟨fun hs => step_poll_write_ok hr hs hw,
    fun hs hf ho => step_flush_write_ok_owing hr hs hf hw ho,
    fun hs hf ho hx => step_flush_write_ok_done hr hs hf hw ho hx⟩

/-- Settles O29: an error is answered before the poll or the flush has its say. -/
theorem writeReplyError : Obligations.WriteReplyError := by
  intro s writes h
  obtain ⟨onOk, hstep⟩ := step_of_awaitsWrite h
  rw [hstep]
  refine ⟨fun actual hlt hw => ?_, fun hw => ?_, fun code hw => ?_⟩
  · rw [awaitWrite_error hw (TxReply.error_shortWrite hlt)]
  · rw [awaitWrite_error hw rfl]
  · rw [awaitWrite_error hw rfl]

/-- Settles O30, in the same way. -/
theorem readReplyError : Obligations.ReadReplyError := by
  intro s got reads h hlen
  obtain ⟨onBytes, hstep⟩ := step_of_awaitsRead h
  rw [hstep]
  exact ⟨fun hrx => by rw [awaitRead_disconnected hlen hrx], fun code hrx => by rw [awaitRead_driverError hlen hrx]⟩

/-- Settles O59: the flush ends with the owed bytes, and the three slices are those of `extractData`. -/
theorem flushReadReply : Obligations.FlushReadReply := by
  intro s r reads hr hs hf hl hrx ended
  have hstep {data : Bytes} (hdata : extractData s.extract s.base r = data) : step s = .next (ended data) :=
    step_flush_read_bytes hr hs hf hl hrx hdata
  refine ⟨fun hx => hstep (by rw [hx, extractData_nothing]), ?_, ?_⟩
  · rintro earlier echo b1 b2 b3 hx hb rfl
    exact hstep (by rw [hx, extractData_identify hb])
  · rintro n earlier echo data hx hb he hd rfl
    exact hstep (by rw [hx, extractData_read hb he hd])

/-- Settles O36: each command calls `TxWrite`, and `flush_nothing_completes` takes it to its end. -/
theorem fireAndForgetCompletes : Obligations.FireAndForgetCompletes := by
  rintro i payload addr s writes r reads hi ⟨hr, hs, hf⟩ hgate hpins hroom hw hl hrx
  obtain ⟨u, hstep, hnone, howed⟩ := flush_nothing_completes
    (s := writing s (outTxn s payload) 0 .nothing) hr hs rfl rfl hw hl hrx
  refine ⟨_, u, exec_fireAndForget hi hgate hpins hroom, hstep, fun ho => ?_, fun ho => ?_⟩
  · simp [hnone ho, writing, hf, ho]
  · simp [howed ho, writing, hf]

/-- Settles O58, check by check. -/
theorem spiDataCommandsMeaning : Obligations.SpiDataCommandsMeaning := by
  refine fun addr data n s => ⟨?_, ?_⟩
  · have happended : s.defer (s.txnOut (cmdAddr Config.spiPageProgram addr data)) 0 =
        appended s (outTxn s ([0x02] ++ addrBytes addr ++ data)) 0 := by
      rw [State.txnOut_eq_outTxn, cmdAddr_eq_addrBytes]; rfl
    rw [← happended, exec_spiPageProgram]
    exact request_next_gate <| request_next_needPins <| request_next_countCheck <|
      request_next_check _ (crossesPage_iff addr data.length) <| request_next_room (by simp) <| request_nil ..
  · have happended : s.defer (s.readBytes addr n.toNat) (4 + n.toNat) =
        appended s (readTxn s addr n.toNat) (4 + n.toNat) := by
      rw [State.readBytes_eq_readTxn]; rfl
    rw [← happended, exec_spiRead]
    exact request_next_gate <| request_next_needPins <| request_next_countCheck <|
      request_next_check _ (pastTop_iff addr n.toNat) <| request_next_room (s.length_readBytes addr n.toNat) <| request_nil ..

end Sys2Proof.Proofs
end

section
/-! PROOFS. Which request words are legal (R70 to R73): a word is its fields, and the decoder's checks, the clauses of
R73 and the rows of the opcode table all say the same of them. -/

namespace Sys2Proof
open Sys2Proof.Machine Sys2Proof.Spec

variable {w v : BitVec 128} {pay : Bytes}

/-! ### A word and its fields -/

theorem extractLsb'_extractLsb'_of_add_le {m start len k l : Nat} {x : BitVec m} (h : k + l ≤ len) :
    (x.extractLsb' start len).extractLsb' k l = x.extractLsb' (start + k) l :=
  extractLsb'_eq_of_getLsbD fun i hi => by
    have hlt : k + i < len := by omega
    simp [hlt, hi, Nat.add_assoc]

theorem Req.mask_fields (w : BitVec 128) :
    Req.mask (Req.op w) (Req.pace w) (Req.rsvLow w) (Req.addr w) (Req.n w) (Req.rsvHigh w) (Req.a w) (Req.b w) = w := by
  simp (disch := rfl) only [Req.mask, Req.op, Req.pace, Req.rsvLow, Req.addr, Req.n, Req.rsvHigh, Req.a, Req.b,
    BitVec.extractLsb'_append_extractLsb'_eq_extractLsb']
  exact BitVec.extractLsb'_eq_self

/-- Two words with the same fields are the same word. -/
theorem Req.eq_iff_fields :
    w = v ↔ Req.op w = Req.op v ∧ Req.pace w = Req.pace v ∧ Req.rsvLow w = Req.rsvLow v ∧ Req.addr w = Req.addr v ∧
      Req.n w = Req.n v ∧ Req.rsvHigh w = Req.rsvHigh v ∧ Req.a w = Req.a v ∧ Req.b w = Req.b v := by
  constructor
  · rintro rfl
    simp
  · rintro ⟨hop, hpace, hlow, haddr, hn, hhigh, ha, hb⟩
    rw [← Req.mask_fields w, ← Req.mask_fields v, hop, hpace, hlow, haddr, hn, hhigh, ha, hb]

theorem Req.op_and (w v : BitVec 128) : Req.op (w &&& v) = Req.op w &&& Req.op v := BitVec.extractLsb'_and
theorem Req.pace_and (w v : BitVec 128) : Req.pace (w &&& v) = Req.pace w &&& Req.pace v := BitVec.extractLsb'_and
theorem Req.rsvLow_and (w v : BitVec 128) : Req.rsvLow (w &&& v) = Req.rsvLow w &&& Req.rsvLow v :=
  BitVec.extractLsb'_and
theorem Req.addr_and (w v : BitVec 128) : Req.addr (w &&& v) = Req.addr w &&& Req.addr v := BitVec.extractLsb'_and
theorem Req.n_and (w v : BitVec 128) : Req.n (w &&& v) = Req.n w &&& Req.n v := BitVec.extractLsb'_and
theorem Req.rsvHigh_and (w v : BitVec 128) : Req.rsvHigh (w &&& v) = Req.rsvHigh w &&& Req.rsvHigh v :=
  BitVec.extractLsb'_and
theorem Req.a_and (w v : BitVec 128) : Req.a (w &&& v) = Req.a w &&& Req.a v := BitVec.extractLsb'_and
theorem Req.b_and (w v : BitVec 128) : Req.b (w &&& v) = Req.b w &&& Req.b v := BitVec.extractLsb'_and

theorem Req.rest_append_op (w : BitVec 128) : Req.rest w ++ Req.op w = w := by
  rw [Req.rest, Req.op, BitVec.extractLsb'_append_extractLsb'_eq_extractLsb' (Nat.zero_add 5).symm]
  exact BitVec.extractLsb'_eq_self

/-- `CFG_PINS` splits `a` into bytes (R100). -/
theorem Req.aTop_append_pins (w : BitVec 128) :
    Req.aTop w ++ w.extractLsb' 80 8 ++ w.extractLsb' 72 8 ++ w.extractLsb' 64 8 = Req.a w := by
  simp (disch := rfl) only [Req.aTop, Req.a, BitVec.extractLsb'_append_extractLsb'_eq_extractLsb']

theorem Req.extract_a (w : BitVec 128) {k l : Nat} (h : k + l ≤ 32) :
    (Req.a w).extractLsb' k l = w.extractLsb' (64 + k) l :=
  extractLsb'_extractLsb'_of_add_le h

theorem Req.aTop_eq (w : BitVec 128) : Req.aTop w = (Req.a w).extractLsb' 24 8 :=
  (Req.extract_a w (k := 24) (l := 8) (by omega)).symm

theorem Req.getLsbD_five (w : BitVec 128) : w.getLsbD 5 = (Req.pace w == 1#1) := BitVec.getLsbD_eq_extractLsb' w 5

/-! ### What an operation uses (R72) -/

theorem usesOf_congr (hop : Req.op w = Req.op v) (hpace : Req.pace w = Req.pace v) : usesOf w = usesOf v := by
  rw [usesOf, hop, hpace, ← usesOf]

theorem usesOf_pace_iff (w : BitVec 128) : (usesOf w).pace = true ↔ (Req.op w).toNat = 0x0F := by
  unfold usesOf; split <;> simp_all

theorem usesOf_addr_iff (w : BitVec 128) : (usesOf w).addr = true ↔ (Req.op w).toNat ∈ [0x0E, 0x0F, 0x10] := by
  unfold usesOf; split <;> simp_all

theorem usesOf_n_iff (w : BitVec 128) :
    (usesOf w).n = true ↔ (Req.op w).toNat ∈ [0x04, 0x05, 0x06, 0x07, 0x0F, 0x10] := by
  unfold usesOf; split <;> simp_all

/-- `PROGRAM_PAGE` uses `a` only when it paces (R73). -/
theorem usesOf_a_iff (w : BitVec 128) :
    (usesOf w).a = true ↔
      (Req.op w).toNat ∈ [0x00, 0x01, 0x0F, 0x11] ∧ ((Req.op w).toNat = 0x0F → Req.pace w = 1#1) := by
  unfold usesOf; split <;> simp_all

theorem usesOf_b_iff (w : BitVec 128) : (usesOf w).b = true ↔ (Req.op w).toNat = 0x11 := by
  unfold usesOf; split <;> simp_all

theorem usesOf_pay_iff (w : BitVec 128) : (usesOf w).pay = true ↔ (Req.op w).toNat ∈ [0x07, 0x0F] := by
  unfold usesOf; split <;> simp_all

/-! ### Legal requests -/

/-- R73 read field by field: what is used by the operation is free, and everything else is zero. -/
structure Req.Legal (w : BitVec 128) (pay : Bytes) : Prop where
  selector : (Req.op w).toNat < 0x12
  rsvLow : Req.rsvLow w = 0
  rsvHigh : Req.rsvHigh w = 0
  pace : (usesOf w).pace = false → Req.pace w = 0
  addr : (usesOf w).addr = false → Req.addr w = 0
  count : (usesOf w).n = false → Req.n w = 0
  a : (usesOf w).a = false → Req.a w = 0
  aTop : Req.op w = 0 → Req.aTop w = 0
  b : (usesOf w).b = false → Req.b w = 0
  payload : if (usesOf w).pay = true then pay.length = (Req.n w).toNat else pay = []

/-- The decoder's checks are the clauses of legality. -/
theorem Req.legal_iff_checks :
    Req.Legal w pay ↔ isReserved w = false ∧ ∀ c ∈ illegalChecks w pay, c.1 = false := by
  have hpay : (if (usesOf w).pay = true then pay.length != (Req.n w).toNat else !pay.isEmpty) = false ↔
      if (usesOf w).pay = true then pay.length = (Req.n w).toNat else pay = [] := by
    split <;> simp
  have hchecks : (isReserved w = false ∧ ∀ c ∈ illegalChecks w pay, c.1 = false) ↔
      (Req.op w).toNat < 0x12 ∧ (Req.rsvLow w = 0 ∧ Req.rsvHigh w = 0) ∧
      ((usesOf w).pace = false → Req.pace w = 0) ∧ ((usesOf w).addr = false → Req.addr w = 0) ∧
      ((usesOf w).n = false → Req.n w = 0) ∧
      (((usesOf w).a = false → Req.a w = 0) ∧ (Req.op w = 0 → Req.aTop w = 0)) ∧
      ((usesOf w).b = false → Req.b w = 0) ∧
      if (usesOf w).pay = true then pay.length = (Req.n w).toNat else pay = [] := by
    simp [isReserved, illegalChecks, hpay]
  constructor
  · rintro ⟨hsel, hlow, hhigh, hpace, haddr, hn, ha, htop, hb, hp⟩
    exact hchecks.2 ⟨hsel, ⟨hlow, hhigh⟩, hpace, haddr, hn, ⟨ha, htop⟩, hb, hp⟩
  · intro h
    obtain ⟨hsel, ⟨hlow, hhigh⟩, hpace, haddr, hn, ⟨ha, htop⟩, hb, hp⟩ := hchecks.1 h
    exact ⟨hsel, hlow, hhigh, hpace, haddr, hn, ha, htop, hb, hp⟩

/-- What an operation does not use is zero, read as: what is not zero is used. -/
theorem unused_zero_iff {b : Bool} {used zero : Prop} (h : b = true ↔ used) :
    (b = false → zero) ↔ (¬ zero → used) := by
  rw [← h]
  cases b <;> simp

theorem Req.pace_ne_zero_iff (w : BitVec 128) : Req.pace w ≠ 0 ↔ w.getLsbD 5 = true := by
  rw [Req.getLsbD_five]
  rcases BitVec.eq_zero_or_eq_one (Req.pace w) with h | h <;> simp [h]

/-- The clauses of R73, as the spec lists them, are the failures of legality. -/
theorem Req.not_illegalByRule_iff : ¬ IllegalByRule w pay ↔ Req.Legal w pay := by
  have hpace := unused_zero_iff (zero := Req.pace w = 0) (usesOf_pace_iff w)
  have haddr := unused_zero_iff (zero := Req.addr w = 0) (usesOf_addr_iff w)
  have hn := unused_zero_iff (zero := Req.n w = 0) (usesOf_n_iff w)
  have ha := unused_zero_iff (zero := Req.a w = 0) (usesOf_a_iff w)
  have hb := unused_zero_iff (zero := Req.b w = 0) (usesOf_b_iff w)
  have hpage : Req.pace w = 1#1 ↔ ¬ w.getLsbD 5 = false := by
    rw [Req.getLsbD_five]; simp
  have hpay : (if (usesOf w).pay = true then pay.length = (Req.n w).toNat else pay = []) ↔
      (pay.length ≠ (Req.n w).toNat → (Req.op w).toNat ∉ [0x07, 0x0F]) ∧
        (pay ≠ [] → (Req.op w).toNat ∈ [0x07, 0x0F]) := by
    rw [← usesOf_pay_iff]
    cases (usesOf w).pay <;> simp
  have htop : (Req.op w = 0 → Req.aTop w = 0) ↔ ((Req.a w).extractLsb' 24 8 ≠ 0 → ¬ (Req.op w).toNat = 0) := by
    rw [← Req.aTop_eq, not_imp_not, BitVec.toNat_eq]
    rfl
  unfold IllegalByRule
  simp only [not_or, not_and, not_not]
  constructor
  · rintro ⟨hsel, ⟨hlow, hhigh⟩, haddr', hn', ha', hb', hpace', hpage', htop', hlen, hnil⟩
    exact
      { selector := Nat.not_le.1 hsel
        rsvLow := hlow
        rsvHigh := hhigh
        pace := hpace.2 fun h => hpace' ((Req.pace_ne_zero_iff w).1 h)
        addr := haddr.2 haddr'
        count := hn.2 hn'
        a := ha.2 fun h => ⟨ha' h, fun hop => hpage.2 (hpage' h hop)⟩
        aTop := htop.2 htop'
        b := hb.2 hb'
        payload := hpay.2 ⟨hlen, hnil⟩ }
  · intro h
    exact ⟨Nat.not_le.2 h.selector, ⟨h.rsvLow, h.rsvHigh⟩, haddr.1 h.addr, hn.1 h.count, fun hne => (ha.1 h.a hne).1,
      hb.1 h.b, fun hbit => hpace.1 h.pace ((Req.pace_ne_zero_iff w).2 hbit),
      fun hne hop => hpage.1 ((ha.1 h.a hne).2 hop), htop.1 h.aTop, (hpay.1 h.payload).1, (hpay.1 h.payload).2⟩

/-! ### Rows of the opcode table -/

/-- The row is the one of an operation: its match names the operation and is zero elsewhere, and its mask leaves free
exactly what that operation uses. -/
def RowFits (row : BitVec 128 × BitVec 128 × Bool) : Prop :=
  let u := usesOf row.2.1
  (Req.op row.2.1).toNat < 0x12 ∧ (u.pace = false → Req.pace row.2.1 = 0) ∧
  row.2.1 = Req.word (Req.op row.2.1) (Req.pace row.2.1) 0 0 0 0 ∧
  Req.op row.1 = .allOnes 5 ∧ Req.pace row.1 = .allOnes 1 ∧ Req.rsvLow row.1 = .allOnes 2 ∧
  Req.addr row.1 = (if u.addr then 0 else .allOnes 24) ∧ Req.n row.1 = (if u.n then 0 else .allOnes 17) ∧
  Req.rsvHigh row.1 = .allOnes 15 ∧
  Req.a row.1 = (if u.a then if Req.op row.2.1 = 0 then 0xFF000000 else 0 else .allOnes 32) ∧
  Req.b row.1 = (if u.b then 0 else .allOnes 32) ∧ row.2.2 = u.pay

theorem requestRows_fit : ∀ row ∈ requestRows, RowFits row := by
  simp only [requestRows, List.forall_mem_cons]
  refine ⟨?_, ?_, ?_, ?_, ?_, ?_, ?_, ?_, ?_, ?_, ?_, ?_, ?_, ?_, ?_, ?_, ?_, ?_, ?_, nofun⟩ <;>
    unfold RowFits <;> decide

/-- Every selector that is not reserved has a row, and `PROGRAM_PAGE` one for each value of `pace`. -/
theorem exists_row : ∀ (op : BitVec 5) (pace : BitVec 1), op.toNat < 0x12 → (op.toNat ≠ 0x0F → pace = 0) →
    ∃ row ∈ requestRows, Req.op row.2.1 = op ∧ Req.pace row.2.1 = pace := by
  decide

theorem and_freed_eq_zero_iff {k : Nat} (b : Bool) (x : BitVec k) :
    x &&& (if b then 0 else .allOnes k) = 0 ↔ (b = false → x = 0) := by
  cases b <;> simp

theorem and_top_eq_zero_iff (w : BitVec 128) : Req.a w &&& 0xFF000000 = 0 ↔ Req.aTop w = 0 := by
  constructor
  · intro h
    have htop : (Req.a w &&& 0xFF000000).extractLsb' 24 8 = (0 : BitVec 32).extractLsb' 24 8 := by rw [h]
    rwa [BitVec.extractLsb'_and, ← Req.aTop_eq,
      show (0xFF000000 : BitVec 32).extractLsb' 24 8 = .allOnes 8 by decide, BitVec.and_allOnes] at htop
  · intro h
    rw [← Req.aTop_append_pins, h]
    exact Req.pins_and_top _ _ _

/-- The masked `a` of a row is zero as the use of `a` and the clause about `a[31:24]` ask. -/
theorem and_a_eq_zero_iff {b : Bool} {p : Prop} [Decidable p] (hp : p → b = true) (w : BitVec 128) :
    Req.a w &&& (if b then if p then 0xFF000000 else 0 else .allOnes 32) = 0 ↔
      (b = false → Req.a w = 0) ∧ (p → Req.aTop w = 0) := by
  by_cases hp' : p
  · simpa [hp', hp hp'] using and_top_eq_zero_iff w
  · simpa [hp'] using and_freed_eq_zero_iff b (Req.a w)

/-- A request is of a row exactly if it is a legal one of the row's operation. -/
theorem ofRow_iff {row : BitVec 128 × BitVec 128 × Bool} (h : RowFits row) :
    OfRow w pay row ↔ Req.op w = Req.op row.2.1 ∧ Req.pace w = Req.pace row.2.1 ∧ Req.Legal w pay := by
  obtain ⟨hsel, hpaces, hmatch, hop, hpace, hlow, haddr, hn, hhigh, ha, hb, hpay⟩ := h
  have hfields : w &&& row.1 = row.2.1 ↔ Req.op w = Req.op row.2.1 ∧ Req.pace w = Req.pace row.2.1 ∧ Req.rsvLow w = 0 ∧
      Req.addr w &&& Req.addr row.1 = 0 ∧ Req.n w &&& Req.n row.1 = 0 ∧ Req.rsvHigh w = 0 ∧
      Req.a w &&& Req.a row.1 = 0 ∧ Req.b w &&& Req.b row.1 = 0 := by
    rw [Req.eq_iff_fields, hmatch]
    simp only [Req.op_word, Req.pace_word, Req.rsvLow_word, Req.addr_word, Req.n_word, Req.rsvHigh_word, Req.a_word,
      Req.b_word, Req.op_and, Req.pace_and, Req.rsvLow_and, Req.addr_and, Req.n_and, Req.rsvHigh_and, Req.a_and,
      Req.b_and, hop, hpace, hlow, hhigh, BitVec.and_allOnes]
  have huses_a : Req.op row.2.1 = 0 → (usesOf row.2.1).a = true := fun h0 => by
    simp [usesOf_a_iff, h0]
  rw [OfRow, hfields, haddr, hn, ha, hb, hpay, and_freed_eq_zero_iff, and_freed_eq_zero_iff, and_freed_eq_zero_iff,
    and_a_eq_zero_iff huses_a]
  constructor
  · rintro ⟨⟨eop, epace, hlow, haddr, hn, hhigh, ⟨ha, htop⟩, hb⟩, hpay⟩
    rw [← usesOf_congr eop epace] at hpaces haddr hn ha hb hpay
    rw [← eop] at hsel htop
    exact ⟨eop, epace, hsel, hlow, hhigh, fun h => epace.trans (hpaces h), haddr, hn, ha, htop, hb, hpay⟩
  · rintro ⟨eop, epace, h⟩
    rw [← usesOf_congr eop epace, ← eop]
    exact ⟨⟨rfl, epace, h.rsvLow, h.addr, h.count, h.rsvHigh, ⟨h.a, h.aTop⟩, h.b⟩, h.payload⟩

/-- The legal requests are those of a row. -/
theorem Req.legal_iff_row : Req.Legal w pay ↔ ∃ row ∈ requestRows, OfRow w pay row := by
  constructor
  · intro h
    obtain ⟨row, hmem, hop, hpace⟩ := exists_row (Req.op w) (Req.pace w) h.selector
      fun hne => h.pace (Bool.eq_false_iff.2 fun hp => hne ((usesOf_pace_iff w).1 hp))
    exact ⟨row, hmem, (ofRow_iff (requestRows_fit row hmem)).2 ⟨hop.symm, hpace.symm, h⟩⟩
  · rintro ⟨row, hmem, hrow⟩
    obtain ⟨_, _, h⟩ := (ofRow_iff (requestRows_fit row hmem)).1 hrow
    exact h

/-! ### The request decoder -/

theorem isReservedInstr_buildRequest (w : BitVec 128) (pay : Bytes) :
    isReservedInstr (buildRequest w pay) = isReserved w := by
  unfold buildRequest isReserved
  split
  case h_16 hop =>
    -- `PROGRAM_PAGE`, with and without pacing
    rw [hop]
    split <;> rfl
  case h_25 =>
    -- selectors above 0x17
    simp only [imp_false] at *
    exact (decide_eq_true (by omega)).symm
  all_goals next hop => rw [hop]; rfl

theorem decodeRequest_of_legal (h : Req.Legal w pay) : decodeRequest w pay = .ok (buildRequest w pay) := by
  obtain ⟨hres, hchecks⟩ := Req.legal_iff_checks.1 h
  simp [decodeRequest, hres, (firstFailing_none_iff _).2 hchecks]

theorem decodeRequest_of_reserved (h : isReserved w = true) : decodeRequest w pay = .ok (buildRequest w pay) :=
  if_pos h

theorem decodeRequest_of_illegal (hres : isReserved w = false) (h : ¬ Req.Legal w pay) :
    ∃ reason, decodeRequest w pay = .error reason := by
  have hfails : firstFailing (illegalChecks w pay) ≠ none := fun hnone =>
    h (Req.legal_iff_checks.2 ⟨hres, (firstFailing_none_iff _).1 hnone⟩)
  obtain ⟨reason, hreason⟩ := Option.ne_none_iff_exists'.1 hfails
  exact ⟨reason, by simp [decodeRequest, hres, hreason]⟩

/-- A request is decoded to an instruction that is no reserved selector exactly if it is legal (R73). -/
theorem decode_request_iff_legal :
    (∃ i, decode (.request w pay) = .ok i ∧ isReservedInstr i = false) ↔ Req.Legal w pay := by
  constructor
  · rintro ⟨i, hdec, hi⟩
    rw [decode] at hdec
    cases hres : isReserved w with
    | true =>
      rw [decodeRequest_of_reserved hres, Except.ok.injEq] at hdec
      rw [← hdec, isReservedInstr_buildRequest, hres] at hi
      contradiction
    | false =>
      by_contra h
      obtain ⟨reason, herr⟩ := decodeRequest_of_illegal hres h
      rw [herr] at hdec
      contradiction
  · intro h
    have hres := (Req.legal_iff_checks.1 h).1
    exact ⟨_, decodeRequest_of_legal h, (isReservedInstr_buildRequest w pay).trans hres⟩

/-! ### Encoding what was decoded -/

/-- A legal word is what its used fields spell. -/
theorem Req.Legal.word_used (h : Req.Legal w pay) :
    Req.word (Req.op w) (if (usesOf w).pace then Req.pace w else 0) (if (usesOf w).addr then Req.addr w else 0)
      (if (usesOf w).n then Req.n w else 0) (if (usesOf w).a then Req.a w else 0)
      (if (usesOf w).b then Req.b w else 0) = w := by
  have hused {k : Nat} {b : Bool} {x : BitVec k} (hz : b = false → x = 0) : (if b then x else 0) = x := by
    cases b <;> simp [hz]
  rw [hused h.pace, hused h.addr, hused h.count, hused h.a, hused h.b]
  simp [Req.eq_iff_fields, h.rsvLow, h.rsvHigh]

/-- The instruction that a legal word names, selector by selector, is encoded as the word's used fields. -/
theorem encode_buildRequest_of_legal (h : Req.Legal w pay) :
    wellFormed (buildRequest w pay) = true ∧ encode (buildRequest w pay) = .request w pay := by
  have hw := h.word_used
  have hp := h.payload
  have hop : Req.op w = BitVec.ofNat 5 (Req.op w).toNat := by simp
  unfold buildRequest
  unfold usesOf at hw hp
  split <;> rename_i hsel <;> simp only [hsel, reduceIte] at hop hw hp
  case h_1 =>
    -- `CFG_PINS`, whose operands are three bytes of `a`
    have ha : 0#8 ++ w.extractLsb' 80 8 ++ w.extractLsb' 72 8 ++ w.extractLsb' 64 8 = Req.a w :=
      (congrArg (· ++ w.extractLsb' 80 8 ++ w.extractLsb' 72 8 ++ w.extractLsb' 64 8) (h.aTop hop)).symm.trans
        (Req.aTop_append_pins w)
    simp_all [wellFormed, encode]
  case h_8 =>
    -- `BYTES`, whose payload the count field counts
    simp_all [wellFormed, encode, fitsCount, (Req.n w).isLt]
  case h_16 =>
    -- `PROGRAM_PAGE`, with and without pacing
    rcases BitVec.eq_zero_or_eq_one (Req.pace w) with hpace | hpace <;>
      simp_all [wellFormed, encode, fitsCount, (Req.n w).isLt]
  case h_25 =>
    -- selectors above 0x17 are reserved
    have hlegal := h.selector
    simp only [imp_false] at *
    omega
  all_goals
    have hlegal := h.selector
    simp_all [wellFormed, encode, Req.bare]

/-! ### Reserved selectors -/

theorem buildRequest_reserved12 (h : (Req.op w).toNat = 0x12 ∨ (Req.op w).toNat = 0x13) (pay : Bytes) :
    buildRequest w pay = .reserved12 (w.extractLsb' 0 1) (Req.rest w) pay := by
  rcases h with h | h <;> rw [buildRequest, h] <;> rfl

theorem buildRequest_reserved14 (h : 0x14 ≤ (Req.op w).toNat ∧ (Req.op w).toNat ≤ 0x17) (pay : Bytes) :
    buildRequest w pay = .reserved14 (w.extractLsb' 0 2) (Req.rest w) pay := by
  obtain ⟨hlo, hhi⟩ := h
  unfold buildRequest
  interval_cases (Req.op w).toNat <;> rfl

theorem buildRequest_reserved18 (h : 0x18 ≤ (Req.op w).toNat) (pay : Bytes) :
    buildRequest w pay = .reserved18 (w.extractLsb' 0 3) (Req.rest w) pay := by
  have hlt := (Req.op w).isLt
  unfold buildRequest
  interval_cases (Req.op w).toNat <;> rfl

theorem Req.op_append (rest : BitVec 123) (op : BitVec 5) : Req.op (rest ++ op) = op :=
  BitVec.extractLsb'_append_eq_right

theorem Req.rest_append (rest : BitVec 123) (op : BitVec 5) : Req.rest (rest ++ op) = rest :=
  BitVec.extractLsb'_append_eq_left

theorem Req.extract_op (w : BitVec 128) {l : Nat} (h : l ≤ 5) : (Req.op w).extractLsb' 0 l = w.extractLsb' 0 l :=
  extractLsb'_extractLsb'_of_add_le (by omega)

/-- A reserved selector's word is spelled by its instruction: the selector's fixed bits, its free bits and the rest. -/
theorem encode_buildRequest_of_reserved (h : isReserved w = true) (pay : Bytes) :
    wellFormed (buildRequest w pay) = true ∧ encode (buildRequest w pay) = .request w pay := by
  have hsel : 0x12 ≤ (Req.op w).toNat := of_decide_eq_true h
  have hword {op : BitVec 5} (hop : op = Req.op w) : (Req.rest w ++ op : BitVec 128) = w := hop ▸ Req.rest_append_op w
  have split12 : ∀ op : BitVec 5, op.toNat = 0x12 ∨ op.toNat = 0x13 →
      (0b1001#4 ++ op.extractLsb' 0 1 : BitVec 5) = op := by decide
  have split14 : ∀ op : BitVec 5, 0x14 ≤ op.toNat ∧ op.toNat ≤ 0x17 →
      (0b101#3 ++ op.extractLsb' 0 2 : BitVec 5) = op := by decide
  have split18 : ∀ op : BitVec 5, 0x18 ≤ op.toNat → (0b11#2 ++ op.extractLsb' 0 3 : BitVec 5) = op := by decide
  have hcases : ((Req.op w).toNat = 0x12 ∨ (Req.op w).toNat = 0x13) ∨
      (0x14 ≤ (Req.op w).toNat ∧ (Req.op w).toNat ≤ 0x17) ∨ 0x18 ≤ (Req.op w).toNat := by omega
  rcases hcases with hop | hop | hop
  · rw [buildRequest_reserved12 hop, ← Req.extract_op w (by omega)]
    refine ⟨rfl, ?_⟩
    rw [encode, BitVec.append_assoc]
    exact congrArg (Offer.request · pay) (hword (split12 _ hop))
  · rw [buildRequest_reserved14 hop, ← Req.extract_op w (by omega)]
    refine ⟨rfl, ?_⟩
    rw [encode, BitVec.append_assoc]
    exact congrArg (Offer.request · pay) (hword (split14 _ hop))
  · rw [buildRequest_reserved18 hop, ← Req.extract_op w (by omega)]
    refine ⟨rfl, ?_⟩
    rw [encode, BitVec.append_assoc]
    exact congrArg (Offer.request · pay) (hword (split18 _ hop))

theorem Req.pins_extract (dir sel desel : Byte) :
    let a : BitVec 32 := 0#8 ++ desel ++ sel ++ dir
    a.extractLsb' 0 8 = dir ∧ a.extractLsb' 8 8 = sel ∧ a.extractLsb' 16 8 = desel ∧ a.extractLsb' 24 8 = 0 := by
  have skip {k l m start : Nat} {hi : BitVec k} {lo : BitVec l} (h : l ≤ start) :
      (hi ++ lo).extractLsb' start m = hi.extractLsb' (start - l) m := BitVec.extractLsb'_append_eq_of_le h
  exact ⟨BitVec.extractLsb'_append_eq_right, (skip (l := 8) (by decide)).trans BitVec.extractLsb'_append_eq_right,
    (skip (l := 8) (by decide)).trans <| (skip (l := 8) (by decide)).trans BitVec.extractLsb'_append_eq_right,
    (skip (l := 8) (by decide)).trans <| (skip (l := 8) (by decide)).trans BitVec.extractLsb'_append_eq_left⟩

/-- A word with a reserved selector is decoded without any check (R73; log 10). -/
theorem decode_reserved {i : Instr} {rest : BitVec 123} {op : BitVec 5} {pay : Bytes} (h : 0x12 ≤ op.toNat)
    (hi : buildRequest (rest ++ op) pay = i) : decode (.request (rest ++ op) pay) = .ok i :=
  hi ▸ decodeRequest_of_reserved (decide_eq_true (by rwa [Req.op_append]))

theorem decode_encode_reserved12 (sel : BitVec 1) (rest : BitVec 123) (pay : Bytes) :
    decode (encode (.reserved12 sel rest pay)) = .ok (.reserved12 sel rest pay) := by
  have hop : ∀ sel : BitVec 1, (0b1001#4 ++ sel).toNat = 0x12 ∨ (0b1001#4 ++ sel).toNat = 0x13 := by decide
  rw [encode, BitVec.append_assoc]
  refine decode_reserved (op := 0b1001#4 ++ sel) (by have := hop sel; omega) ?_
  rw [buildRequest_reserved12 (by rw [Req.op_append]; exact hop sel), Req.rest_append, ← Req.extract_op _ (by omega),
    Req.op_append, BitVec.extractLsb'_append_eq_right]

theorem decode_encode_reserved14 (sel : BitVec 2) (rest : BitVec 123) (pay : Bytes) :
    decode (encode (.reserved14 sel rest pay)) = .ok (.reserved14 sel rest pay) := by
  have hop : ∀ sel : BitVec 2, 0x14 ≤ (0b101#3 ++ sel).toNat ∧ (0b101#3 ++ sel).toNat ≤ 0x17 := by decide
  rw [encode, BitVec.append_assoc]
  refine decode_reserved (op := 0b101#3 ++ sel) (by have := hop sel; omega) ?_
  rw [buildRequest_reserved14 (by rw [Req.op_append]; exact hop sel), Req.rest_append, ← Req.extract_op _ (by omega),
    Req.op_append, BitVec.extractLsb'_append_eq_right]

theorem decode_encode_reserved18 (sel : BitVec 3) (rest : BitVec 123) (pay : Bytes) :
    decode (encode (.reserved18 sel rest pay)) = .ok (.reserved18 sel rest pay) := by
  have hop : ∀ sel : BitVec 3, 0x18 ≤ (0b11#2 ++ sel).toNat := by decide
  rw [encode, BitVec.append_assoc]
  refine decode_reserved (op := 0b11#2 ++ sel) (by have := hop sel; omega) ?_
  rw [buildRequest_reserved18 (by rw [Req.op_append]; exact hop sel), Req.rest_append, ← Req.extract_op _ (by omega),
    Req.op_append, BitVec.extractLsb'_append_eq_right]

/-! ### Decoding what was encoded -/

/-- The pins stand in `a` where R100 puts them. -/
theorem Req.word_pins (dir sel desel : Byte) :
    let w := Req.word 0#5 0#1 0#24 0#17 (0#8 ++ desel ++ sel ++ dir) 0#32
    w.extractLsb' 64 8 = dir ∧ w.extractLsb' 72 8 = sel ∧ w.extractLsb' 80 8 = desel ∧ Req.aTop w = 0 := by
  intro w
  have ha {k : Nat} (h : k + 8 ≤ 32) :
      w.extractLsb' (64 + k) 8 = (0#8 ++ desel ++ sel ++ dir : BitVec 32).extractLsb' k 8 := by
    rw [← Req.extract_a w h, Req.a_word]
  obtain ⟨hdir, hsel, hdesel, htop⟩ := Req.pins_extract dir sel desel
  exact ⟨(ha (k := 0) (by omega)).trans hdir, (ha (k := 8) (by omega)).trans hsel,
    (ha (k := 16) (by omega)).trans hdesel, (ha (k := 24) (by omega)).trans htop⟩

/-- Every request row: its word's fields are read back where they were put, and the checks pass on the others. -/
theorem decode_encode_of_request {i : Instr} {w : BitVec 128} {pay : Bytes} (hi : encode i = .request w pay)
    (hwf : wellFormed i = true) : decode (encode i) = .ok i := by
  have count {pay : Bytes} (h : fitsCount pay = true) : pay.length % 131072 = pay.length :=
    Nat.mod_eq_of_lt (of_decide_eq_true h)
  cases i
  case cfgPins dir sel desel =>
    obtain ⟨hdir, hsel, hdesel, htop⟩ := Req.word_pins dir sel desel
    simp [decode, encode, decodeRequest, isReserved, illegalChecks, usesOf, buildRequest, hdir, hsel, hdesel, htop]
  case reserved12 sel rest pay => exact decode_encode_reserved12 sel rest pay
  case reserved14 sel rest pay => exact decode_encode_reserved14 sel rest pay
  case reserved18 sel rest pay => exact decode_encode_reserved18 sel rest pay
  case bytes | programPage | programPagePace =>
    simp [decode, encode, decodeRequest, isReserved, illegalChecks, usesOf, buildRequest, count hwf]
  case cfgClock | csSelect | csDeselect | dataOut | dataOutIn | waitMask | flush | identify | powerUp | powerDown |
      writeEnable | bulkErase | sectorErase | read | waitReady =>
    simp [decode, encode, decodeRequest, isReserved, illegalChecks, usesOf, buildRequest, Req.bare]
  all_goals exact nomatch hi

end Sys2Proof
end

section
/-! PROOFS. The MPSSE stream (R78 to R84): an item is parsed exactly where its encoding stands, and a stream is parsed
as the items that its parts parse as. -/

namespace Sys2Proof
open Sys2Proof.Machine Sys2Proof.Spec

variable {i : Instr} {e p bs rest : Bytes}

/-! ### Headers -/

theorem append_le16_bytes (f : BitVec 16) : f.extractLsb' 8 8 ++ f.extractLsb' 0 8 = f := by
  rw [BitVec.extractLsb'_append_extractLsb'_eq_extractLsb' (Nat.zero_add 8).symm]
  exact BitVec.extractLsb'_eq_self

theorem le16_append (y x : Byte) : le16 (y ++ x) = [x, y] := by
  rw [le16, BitVec.extractLsb'_append_eq_right, BitVec.extractLsb'_append_eq_left]

theorem toNat_append_bytes (y x : Byte) : (y ++ x).toNat = x.toNat + 256 * y.toNat := by
  rw [BitVec.toNat_append, Nat.shiftLeft_eq, Nat.mul_comm, ← Nat.two_pow_add_eq_or_of_lt x.isLt]
  exact Nat.add_comm ..

/-- The count field holds the count less one of every transfer that can be sent (R79, R81). -/
theorem toNat_countField {n : Nat} (hpos : 1 ≤ n) (hle : n ≤ Config.maxXfer) : (countField n).toNat + 1 = n := by
  have hlt : n - 1 < 2 ^ 16 := by have : Config.maxXfer = 2 ^ 16 := rfl; omega
  rw [countField, BitVec.toNat_ofNat, Nat.mod_eq_of_lt hlt]
  omega

theorem countField_toNat_add_one (f : BitVec 16) : countField (f.toNat + 1) = f := by
  simp [countField]

theorem fitsTransfer_iff : fitsTransfer p = true ↔ 1 ≤ p.length ∧ p.length ≤ Config.maxXfer := by
  simp [fitsTransfer]

theorem takeExactly_append {n : Nat} (h : p.length = n) : takeExactly n (p ++ rest) = some (p, rest) := by
  subst h
  simp [takeExactly]

theorem takeExactly_eq_some {n : Nat} (h : takeExactly n bs = some (p, rest)) : p.length = n ∧ bs = p ++ rest := by
  unfold takeExactly at h
  split at h
  · contradiction
  · next hlen =>
    simp only [Option.some.injEq, Prod.mk.injEq] at h
    obtain ⟨rfl, rfl⟩ := h
    exact ⟨List.length_take_of_le (Nat.not_lt.1 hlen), (List.take_append_drop n bs).symm⟩

/-! ### One item -/

/-- `e` is the encoding of the stream item `i`. -/
def IsItem (i : Instr) (e : Bytes) : Prop := wellFormed i = true ∧ encode i = .mpsse e

theorem isItem_setLow (value dir : Byte) : IsItem (.mpsseSetLow value dir) (encSetLow value dir) := ⟨rfl, rfl⟩

theorem isItem_wait (f : BitVec 16) : IsItem (.mpsseWait f) (encWaitField f) := ⟨rfl, rfl⟩

theorem isItem_out (h : fitsTransfer p = true) : IsItem (.mpsseOut p) (encOut p.length ++ p) := ⟨h, rfl⟩

theorem isItem_outIn (h : fitsTransfer p = true) : IsItem (.mpsseOutIn p) (encOutIn p.length ++ p) := ⟨h, rfl⟩

/-! The parser on each of the four command bytes (R84). -/

theorem parseItem_setLow (x y : Byte) (rest : Bytes) :
    parseItem (Config.opcSetLow :: x :: y :: rest) = some (.mpsseSetLow x y, rest) := if_pos rfl

theorem parseItem_wait (x y : Byte) (rest : Bytes) :
    parseItem (Config.opcWait :: x :: y :: rest) = some (.mpsseWait (y ++ x), rest) := by
  simp [parseItem, Config.opcSetLow_ne_opcWait.symm]

theorem parseItem_out (x y : Byte) (rest : Bytes) :
    parseItem (Config.opcOut :: x :: y :: rest) =
      (takeExactly (x.toNat + 256 * y.toNat + 1) rest).map fun r => (.mpsseOut r.1, r.2) := by
  simp [parseItem, Config.opcSetLow_ne_opcOut.symm, Config.opcOut_ne_opcWait]

theorem parseItem_outIn (x y : Byte) (rest : Bytes) :
    parseItem (Config.opcOutIn :: x :: y :: rest) =
      (takeExactly (x.toNat + 256 * y.toNat + 1) rest).map fun r => (.mpsseOutIn r.1, r.2) := by
  simp [parseItem, Config.opcSetLow_ne_opcOutIn.symm, Config.opcOutIn_ne_opcWait, Config.opcOut_ne_opcOutIn.symm]

/-- The header of a transfer tells where its payload ends. -/
theorem takeExactly_payload (h : fitsTransfer p = true) (rest : Bytes) :
    takeExactly
      (((countField p.length).extractLsb' 0 8).toNat + 256 * ((countField p.length).extractLsb' 8 8).toNat + 1)
      (p ++ rest) = some (p, rest) := by
  obtain ⟨hpos, hle⟩ := fitsTransfer_iff.1 h
  apply takeExactly_append
  rw [← toNat_append_bytes, append_le16_bytes, toNat_countField hpos hle]

theorem parseItem_of_isItem (h : IsItem i e) (rest : Bytes) : parseItem (e ++ rest) = some (i, rest) := by
  obtain ⟨hwf, he⟩ := h
  cases i with
  | mpsseSetLow value dir =>
    cases he
    exact parseItem_setLow value dir rest
  | mpsseWait f =>
    cases he
    exact (parseItem_wait _ _ rest).trans (by rw [append_le16_bytes])
  | mpsseOut payload =>
    cases he
    exact (parseItem_out _ _ (payload ++ rest)).trans (by rw [takeExactly_payload hwf]; rfl)
  | mpsseOutIn payload =>
    cases he
    exact (parseItem_outIn _ _ (payload ++ rest)).trans (by rw [takeExactly_payload hwf]; rfl)
  | _ => exact nomatch he

/-- A header read back: the payload it announces has the length that encodes to it. -/
theorem fitsTransfer_of_header {x y : Byte} (h : p.length = x.toNat + 256 * y.toNat + 1) :
    fitsTransfer p = true ∧ le16 (countField p.length) = [x, y] := by
  have hx := x.isLt
  have hy := y.isLt
  refine ⟨fitsTransfer_iff.2 ⟨by omega, by simp only [Config.maxXfer]; omega⟩, ?_⟩
  rw [h, ← toNat_append_bytes, countField_toNat_add_one, le16_append]

theorem isItem_of_parseItem (h : parseItem bs = some (i, rest)) : ∃ e, IsItem i e ∧ bs = e ++ rest := by
  unfold parseItem at h
  split at h
  · next c x y tail =>
    split_ifs at h with hset hwait hout houtIn
    · cases h
      exact ⟨_, isItem_setLow x y, by rw [hset]; rfl⟩
    · cases h
      exact ⟨_, isItem_wait (y ++ x), by rw [hwait, encWaitField, le16_append]; rfl⟩
    · obtain ⟨⟨p, r⟩, htake, hpair⟩ := Option.map_eq_some_iff.1 h
      cases hpair
      obtain ⟨hlen, htail⟩ := takeExactly_eq_some htake
      obtain ⟨hfits, hle⟩ := fitsTransfer_of_header hlen
      exact ⟨_, isItem_out hfits, by simp [hout, encOut, hle, htail]⟩
    · obtain ⟨⟨p, r⟩, htake, hpair⟩ := Option.map_eq_some_iff.1 h
      cases hpair
      obtain ⟨hlen, htail⟩ := takeExactly_eq_some htake
      obtain ⟨hfits, hle⟩ := fitsTransfer_of_header hlen
      exact ⟨_, isItem_outIn hfits, by simp [houtIn, encOutIn, hle, htail]⟩
  · contradiction

theorem decode_encode_of_mpsse (hi : encode i = .mpsse e) (hwf : wellFormed i = true) : decode (encode i) = .ok i := by
  have hparse : parseItem e = some (i, []) := by simpa using parseItem_of_isItem ⟨hwf, hi⟩ []
  simp [hi, decode, decodeItem, hparse]

theorem encode_of_decodeItem (h : decodeItem bs = .ok i) : wellFormed i = true ∧ encode i = .mpsse bs := by
  unfold decodeItem at h
  split at h
  · next item hparse =>
    cases h
    obtain ⟨e, hitem, rfl⟩ := isItem_of_parseItem hparse
    rwa [List.append_nil]
  · contradiction

/-! ### A whole stream -/

theorem IsItem.length_pos (h : IsItem i e) : 0 < e.length := by
  refine List.length_pos_of_ne_nil ?_
  rintro rfl
  exact nomatch parseItem_of_isItem h []

/-- Fuel that is enough is never felt. -/
theorem parseWithFuel_eq {fuel fuel' : Nat} (h : bs.length ≤ fuel) (h' : bs.length ≤ fuel') :
    parseWithFuel fuel bs = parseWithFuel fuel' bs := by
  induction fuel generalizing fuel' bs with
  | zero =>
    rw [List.eq_nil_of_length_eq_zero (Nat.le_zero.1 h)]
    cases fuel' <;> rfl
  | succ fuel ih =>
    match bs, fuel' with
    | [], 0 => rfl
    | [], _ + 1 => rfl
    | b :: bs, fuel' + 1 =>
      rw [parseWithFuel, parseWithFuel]
      cases hparse : parseItem (b :: bs) with
      | none => rfl
      | some r =>
        obtain ⟨e, hitem, hbs⟩ := isItem_of_parseItem hparse
        have hlen : bs.length + 1 = e.length + r.2.length := by
          rw [← List.length_append, ← hbs, List.length_cons]
        have hpos := hitem.length_pos
        simp only [List.length_cons] at h h'
        exact congrArg (Option.map (r.1 :: ·)) (ih (by omega) (by omega))

theorem parseStream_nil : parseStream [] = some [] := rfl

theorem parseStream_item (h : IsItem i e) (rest : Bytes) :
    parseStream (e ++ rest) = (parseStream rest).map (i :: ·) := by
  match e, h.length_pos, parseItem_of_isItem h rest with
  | b :: bs, _, hparse =>
    rw [parseStream, List.cons_append, List.length_cons, parseWithFuel, ← List.cons_append, hparse]
    exact congrArg (Option.map (i :: ·)) (parseWithFuel_eq (by simp) le_rfl)

/-- A stream that parses is empty, or opens with an item. -/
theorem parseStream_cases {is : List Instr} (h : parseStream bs = some is) :
    (bs = [] ∧ is = []) ∨
    ∃ i e rest tail, IsItem i e ∧ bs = e ++ rest ∧ is = i :: tail ∧ parseStream rest = some tail := by
  match bs with
  | [] =>
    cases h
    exact .inl ⟨rfl, rfl⟩
  | b :: bs =>
    cases hparse : parseItem (b :: bs) with
    | none => simp [parseStream, parseWithFuel, hparse] at h
    | some r =>
      obtain ⟨e, hitem, hbs⟩ := isItem_of_parseItem hparse
      rw [hbs, parseStream_item hitem, Option.map_eq_some_iff] at h
      obtain ⟨tail, htail, rfl⟩ := h
      exact .inr ⟨_, e, _, tail, hitem, hbs, rfl, htail⟩

theorem parseStream_append {is : List Instr} (h : parseStream bs = some is) (rest : Bytes) :
    parseStream (bs ++ rest) = (parseStream rest).map (is ++ ·) := by
  induction is generalizing bs with
  | nil =>
    obtain ⟨rfl, _⟩ | ⟨_, _, _, _, _, _, hcons, _⟩ := parseStream_cases h
    · simp
    · contradiction
  | cons i is ih =>
    obtain ⟨_, hnil⟩ | ⟨_, e, tail, _, hitem, rfl, hcons, htail⟩ := parseStream_cases h
    · contradiction
    · cases hcons
      rw [List.append_assoc, parseStream_item hitem, ih htail, Option.map_map]
      rfl

theorem parseStream_of_isItem (h : IsItem i e) : parseStream e = some [i] := by
  simpa [parseStream_nil] using parseStream_item h []

/-! ### Emissions (R82) -/

theorem parse_transaction (s : State) (h : IsItem i e) :
    parseStream (s.encSelect ++ e ++ s.encDeselect) =
      some [.mpsseSetLow s.valSelect s.dirMask, i, .mpsseSetLow s.valDeselect s.dirMask] := by
  rw [List.append_assoc, State.encSelect, State.encDeselect, parseStream_item (isItem_setLow _ _), parseStream_item h,
    parseStream_of_isItem (isItem_setLow _ _)]
  rfl

theorem parse_txnOut (s : State) (h : fitsTransfer p = true) :
    parseStream (s.txnOut p) =
      some [.mpsseSetLow s.valSelect s.dirMask, .mpsseOut p, .mpsseSetLow s.valDeselect s.dirMask] := by
  rw [State.txnOut, List.append_assoc s.encSelect, parse_transaction s (isItem_out h)]

theorem parse_txnOutIn (s : State) (h : fitsTransfer p = true) :
    parseStream (s.txnOutIn p) =
      some [.mpsseSetLow s.valSelect s.dirMask, .mpsseOutIn p, .mpsseSetLow s.valDeselect s.dirMask] := by
  rw [State.txnOutIn, List.append_assoc s.encSelect, parse_transaction s (isItem_outIn h)]

end Sys2Proof
end

section
/-! PROOFS. What the flash commands emit, parsed (R82, R129), and the framing of the buffer (R84, R198). -/

namespace Sys2Proof.Machine
open Sys2Proof.Spec

variable {i : Instr} {s t : State} {p : Bytes}

theorem fitsTransfer_of_le (hpos : 1 ≤ p.length) (hle : p.length ≤ 65536) : fitsTransfer p = true :=
  fitsTransfer_iff.2 ⟨hpos, hle⟩

theorem fitsTransfer_cmdDummy (op : Byte) {ds : Bytes} (h : ds.length ≤ 65535) : fitsTransfer (cmdDummy op ds) = true :=
  fitsTransfer_of_le (by simp) (by rw [length_cmdDummy]; omega)

theorem fitsTransfer_cmdAddr (op : Byte) (addr : BitVec 24) {data : Bytes} (h : data.length ≤ 65532) :
    fitsTransfer (cmdAddr op addr data) = true :=
  fitsTransfer_of_le (by simp) (by rw [length_cmdAddr]; omega)

theorem parse_programBytes (s : State) (addr : BitVec 24) {pay : Bytes} (h : pay.length ≤ 65532) :
    parseStream (s.programBytes addr pay) =
      some [.mpsseSetLow s.valSelect s.dirMask, .mpsseOut [0x06], .mpsseSetLow s.valDeselect s.dirMask,
        .mpsseSetLow s.valSelect s.dirMask, .mpsseOut ([0x02] ++ addrBytes addr ++ pay),
        .mpsseSetLow s.valDeselect s.dirMask] := by
  rw [State.programBytes, parseStream_append (parse_txnOut s (fitsTransfer_cmdDummy _ (by simp))),
    parse_txnOut s (fitsTransfer_cmdAddr _ _ h), cmdAddr_eq_addrBytes]
  rfl

theorem parse_programPaceBytes (s : State) (addr : BitVec 24) {pay : Bytes} (budget : BitVec 32)
    (h : pay.length ≤ 65532) :
    parseStream (s.programPaceBytes addr pay budget) =
      some [.mpsseSetLow s.valSelect s.dirMask, .mpsseOut [0x06], .mpsseSetLow s.valDeselect s.dirMask,
        .mpsseSetLow s.valSelect s.dirMask, .mpsseOut ([0x02] ++ addrBytes addr ++ pay),
        .mpsseSetLow s.valDeselect s.dirMask, .mpsseWait (BitVec.ofNat 16 (paceCount budget s.sckHz - 1))] := by
  rw [State.programPaceBytes, parseStream_append (parse_programBytes s addr h), encWait,
    parseStream_of_isItem (isItem_wait _)]
  rfl

theorem parse_readBytes (s : State) (addr : BitVec 24) {n : Nat} (h : n ≤ 65532) :
    parseStream (s.readBytes addr n) =
      some [.mpsseSetLow s.valSelect s.dirMask, .mpsseOutIn ([0x03] ++ addrBytes addr ++ List.replicate n 0xFF),
        .mpsseSetLow s.valDeselect s.dirMask] := by
  rw [State.readBytes, parse_txnOutIn s (fitsTransfer_cmdAddr _ _ (by simpa using h)), cmdAddr_eq_addrBytes]
  rfl

/-! ### Framing -/

theorem wellFramed_of_parseStream {bs : Bytes} {is : List Instr} (h : parseStream bs = some is) : WellFramed bs :=
  Option.isSome_of_eq_some h

theorem WellFramed.append {as bs : Bytes} (ha : WellFramed as) (hb : WellFramed bs) : WellFramed (as ++ bs) := by
  obtain ⟨is, his⟩ := Option.isSome_iff_exists.1 ha
  obtain ⟨js, hjs⟩ := Option.isSome_iff_exists.1 hb
  exact wellFramed_of_parseStream (by rw [parseStream_append his, hjs, Option.map_some])

theorem wellFramed_item {e : Bytes} (h : IsItem i e) : WellFramed e :=
  wellFramed_of_parseStream (parseStream_of_isItem h)

theorem wellFramed_txnOut (s : State) (h : fitsTransfer p = true) : WellFramed (s.txnOut p) :=
  wellFramed_of_parseStream (parse_txnOut s h)

theorem wellFramed_txnOutIn (s : State) (h : fitsTransfer p = true) : WellFramed (s.txnOutIn p) :=
  wellFramed_of_parseStream (parse_txnOutIn s h)

/-- A request keeps the buffer well framed if its body does, which runs only when the checks passed. -/
theorem request_keeps_framing {checks : List Check} {body : State → State} (hs : WellFramed s.cbuf)
    (hbody : (∀ c ∈ checks, c.1 = false) → WellFramed (body s).cbuf) (h : s.request checks body = .next t) :
    WellFramed t.cbuf := by
  rcases request_cases h with ⟨r, _, rfl⟩ | ⟨hchecks, rfl⟩
  · exact hs
  · exact hbody ((firstFailing_none_iff _).1 hchecks)

theorem defer_keeps_framing {checks : List Check} {e : Bytes} {r : Nat} (hs : WellFramed s.cbuf)
    (he : (∀ c ∈ checks, c.1 = false) → WellFramed e) (h : s.request checks (fun s => s.defer e r) = .next t) :
    WellFramed t.cbuf :=
  request_keeps_framing hs (fun hc => hs.append (he hc)) h

theorem immediate_keeps_framing {checks : List Check} {e : Bytes} {r : Nat} {x : Extract} (hs : WellFramed s.cbuf)
    (he : (∀ c ∈ checks, c.1 = false) → WellFramed e) (h : s.request checks (fun s => s.immediate e r x) = .next t) :
    WellFramed t.cbuf :=
  request_keeps_framing hs (fun hc => by
    rw [State.immediate, State.beginFlush_cbuf]
    exact hs.append (he hc)) h

theorem count_le_of_checks {checks : List Check} {n max : Nat} (h : ∀ c ∈ checks, c.1 = false)
    (hmem : countCheck n max ∈ checks) : 1 ≤ n ∧ n ≤ max :=
  (countCheck_passes_iff n max).1 (h _ hmem)

/-- Each instruction but the raw primitives appends whole items; the payload that an item or a command takes was
counted by the checks before it. -/
theorem exec_keeps_framing (hraw : isRaw i = false) (hs : WellFramed s.cbuf) (h : exec i s = .next t) :
    WellFramed t.cbuf := by
  cases i with
  | dataOut | dataOutIn | bytes => contradiction
  | reserved12 | reserved14 | reserved18 =>
    cases h
    exact hs
  | cfgPins dir sel desel => exact request_keeps_framing (body := fun s => s.setPins dir sel desel) hs (fun _ => hs) h
  | cfgClock hz => exact request_keeps_framing (body := fun s => s.setClock hz) hs (fun _ => hs) h
  | flush =>
    exact request_keeps_framing (body := fun s => s.beginFlush .nothing) hs (fun _ => by rwa [State.beginFlush_cbuf]) h
  | csSelect | csDeselect | mpsseSetLow =>
    exact defer_keeps_framing hs (fun _ => wellFramed_item (isItem_setLow _ _)) h
  | waitMask | mpsseWait =>
    exact defer_keeps_framing hs (fun _ => wellFramed_item (isItem_wait _)) h
  | mpsseOut payload =>
    exact defer_keeps_framing hs (fun hc => wellFramed_item <| isItem_out <| fitsTransfer_iff.2 <|
      count_le_of_checks hc (by simp)) h
  | mpsseOutIn payload =>
    exact defer_keeps_framing hs (fun hc => wellFramed_item <| isItem_outIn <| fitsTransfer_iff.2 <|
      count_le_of_checks hc (by simp)) h
  | programPage addr pay =>
    refine defer_keeps_framing hs (fun hc => wellFramed_of_parseStream (parse_programBytes s addr ?_)) h
    exact (count_le_of_checks hc (max := Config.page) (by simp [State.programChecks])).2.trans (by decide)
  | programPagePace addr pay budget =>
    refine defer_keeps_framing hs (fun hc => wellFramed_of_parseStream (parse_programPaceBytes s addr budget ?_)) h
    exact (count_le_of_checks hc (max := Config.page) (by simp [State.programChecks])).2.trans (by decide)
  | spiPageProgram addr data =>
    refine defer_keeps_framing hs (fun hc => wellFramed_txnOut s (fitsTransfer_cmdAddr _ _ ?_)) h
    exact (count_le_of_checks hc (max := Config.page) (by simp)).2.trans (by decide)
  | read addr n =>
    refine immediate_keeps_framing hs (fun hc => wellFramed_of_parseStream (parse_readBytes s addr ?_)) h
    exact (count_le_of_checks hc (max := Config.maxRead) (by simp [State.readChecks])).2
  | spiRead addr n =>
    refine defer_keeps_framing hs (fun hc => wellFramed_of_parseStream (parse_readBytes s addr ?_)) h
    exact (count_le_of_checks hc (max := Config.maxRead) (by simp)).2
  | identify =>
    exact immediate_keeps_framing hs (fun _ => wellFramed_txnOutIn s (fitsTransfer_cmdDummy _ (by simp))) h
  | powerUp | powerDown | writeEnable | bulkErase =>
    exact immediate_keeps_framing hs (fun _ => wellFramed_txnOut s (fitsTransfer_cmdDummy _ (by simp))) h
  | sectorErase =>
    exact immediate_keeps_framing hs (fun _ => wellFramed_txnOut s (fitsTransfer_cmdAddr _ _ (by simp))) h
  | waitReady pollMs budgetMs =>
    exact request_keeps_framing (body := fun s => s.startWait pollMs budgetMs) hs
      (fun _ => hs.append (wellFramed_txnOutIn s (fitsTransfer_cmdDummy _ (by simp)))) h
  | spiIdentify | spiReadStatus =>
    exact defer_keeps_framing hs (fun _ => wellFramed_txnOutIn s (fitsTransfer_cmdDummy _ (by simp))) h
  | spiPowerUp | spiPowerDown | spiWriteEnable | spiBulkErase =>
    exact defer_keeps_framing hs (fun _ => wellFramed_txnOut s (fitsTransfer_cmdDummy _ (by simp))) h
  | spiSectorErase64k =>
    exact defer_keeps_framing hs (fun _ => wellFramed_txnOut s (fitsTransfer_cmdAddr _ _ (by simp))) h

end Sys2Proof.Machine
end

section
/-! PROOFS. The SPI flash commands (R85, R86), and the three decoders together. -/

namespace Sys2Proof
open Sys2Proof.Spec

variable {i : Instr} {op : Byte} {args bs : Bytes} {addr : BitVec 24} {data : Bytes}

/-! ### The address (R58 (b)) -/

theorem append_be24_bytes (a : BitVec 24) : a.extractLsb' 16 8 ++ a.extractLsb' 8 8 ++ a.extractLsb' 0 8 = a := by
  simp (disch := rfl) only [BitVec.extractLsb'_append_extractLsb'_eq_extractLsb']
  exact BitVec.extractLsb'_eq_self

theorem be24_append (a2 a1 a0 : Byte) : be24 (a2 ++ a1 ++ a0) = [a2, a1, a0] := by
  have hhigh : (a2 ++ a1 ++ a0).extractLsb' 16 8 = a2 :=
    (BitVec.extractLsb'_append_eq_of_le (by decide)).trans BitVec.extractLsb'_append_eq_left
  have hmid : (a2 ++ a1 ++ a0).extractLsb' 8 8 = a1 :=
    (BitVec.extractLsb'_append_eq_of_le (by decide)).trans BitVec.extractLsb'_append_eq_right
  rw [be24, hhigh, hmid, BitVec.extractLsb'_append_eq_right]

theorem splitAddr_be24 (addr : BitVec 24) (data : Bytes) : splitAddr (be24 addr ++ data) = some (addr, data) := by
  simp [be24, splitAddr, append_be24_bytes]

theorem splitAddr_eq_some (h : splitAddr args = some (addr, data)) : args = be24 addr ++ data := by
  unfold splitAddr at h
  split at h
  · cases h
    rw [be24_append]
    rfl
  · contradiction

/-! ### The commands -/

theorem splitAddr_be24_nil (addr : BitVec 24) : splitAddr (be24 addr) = some (addr, []) := by
  simpa using splitAddr_be24 addr []

theorem spiInstr_sectorErase (addr : BitVec 24) :
    spiInstr Config.spiSectorErase (be24 addr) = some (.spiSectorErase64k addr) := by
  simp [spiInstr, splitAddr_be24_nil, Config.spiIdentify, Config.spiPowerUp, Config.spiPowerDown, Config.spiWriteEnable,
    Config.spiBulkErase, Config.spiSectorErase]

theorem spiInstr_pageProgram (addr : BitVec 24) (h : fitsPage data = true) :
    spiInstr Config.spiPageProgram (be24 addr ++ data) = some (.spiPageProgram addr data) := by
  simp [spiInstr, splitAddr_be24, h, Config.spiIdentify, Config.spiPowerUp, Config.spiPowerDown, Config.spiWriteEnable,
    Config.spiBulkErase, Config.spiSectorErase, Config.spiPageProgram]

theorem spiInstr_read (addr : BitVec 24) {n : BitVec 17} (h : fitsRead n = true) :
    spiInstr Config.spiRead (be24 addr ++ Config.fillByte.rep n.toNat) = some (.spiRead addr n) := by
  simp [spiInstr, splitAddr_be24, h, n.isLt, Config.spiIdentify, Config.spiPowerUp, Config.spiPowerDown,
    Config.spiWriteEnable, Config.spiBulkErase, Config.spiSectorErase, Config.spiPageProgram, Config.spiRead]

theorem decodeSpi_of_spiInstr (h : spiInstr op args = some i) : decodeSpi (op :: args) = .ok i := by
  simp [decodeSpi, h]

theorem decode_encode_of_spi (hi : encode i = .spi bs) (hwf : wellFormed i = true) : decode (encode i) = .ok i := by
  cases i
  case spiIdentify | spiPowerUp | spiPowerDown | spiWriteEnable | spiBulkErase | spiReadStatus => rfl
  case spiSectorErase64k addr =>
    rw [encode, cmdAddr, List.append_nil]
    exact decodeSpi_of_spiInstr (spiInstr_sectorErase addr)
  case spiPageProgram addr data => exact decodeSpi_of_spiInstr (spiInstr_pageProgram addr hwf)
  case spiRead addr n => exact decodeSpi_of_spiInstr (spiInstr_read addr hwf)
  all_goals exact nomatch hi

theorem encode_of_spiInstr (h : spiInstr op args = some i) : wellFormed i = true ∧ encode i = .spi (op :: args) := by
  unfold spiInstr at h
  split_ifs at h with hid hup hnil hdown hnil hwe hnil hbulk hnil hse hpp hrd hst
  · split at h
    · cases h
      exact ⟨rfl, by rw [hid]; rfl⟩
    · contradiction
  · cases h
    exact ⟨rfl, by rw [hup, hnil]; rfl⟩
  · cases h
    exact ⟨rfl, by rw [hdown, hnil]; rfl⟩
  · cases h
    exact ⟨rfl, by rw [hwe, hnil]; rfl⟩
  · cases h
    exact ⟨rfl, by rw [hbulk, hnil]; rfl⟩
  · split at h
    · next addr hsplit =>
      cases h
      exact ⟨rfl, by rw [hse, splitAddr_eq_some hsplit]; rfl⟩
    · contradiction
  · split at h
    · next addr data hsplit =>
      split_ifs at h with hfits
      cases h
      exact ⟨hfits, by rw [hpp, splitAddr_eq_some hsplit]; rfl⟩
    · contradiction
  · split at h
    · next addr data hsplit =>
      split_ifs at h with hfits
      cases h
      simp only [Bool.and_eq_true, decide_eq_true_eq] at hfits
      obtain ⟨⟨hread, hfill⟩, hlen⟩ := hfits
      have hn : (BitVec.ofNat 17 data.length).toNat = data.length := Nat.mod_eq_of_lt hlen
      refine ⟨hread, ?_⟩
      rw [hrd, splitAddr_eq_some hsplit, encode, cmdAddr, hn, ← hfill]
    · contradiction
  · split at h
    · cases h
      exact ⟨rfl, by rw [hst]; rfl⟩
    · contradiction

theorem encode_of_decodeSpi (h : decodeSpi bs = .ok i) : wellFormed i = true ∧ encode i = .spi bs := by
  unfold decodeSpi at h
  split at h
  · contradiction
  · split at h
    · next hspi =>
      cases h
      exact encode_of_spiInstr hspi
    · contradiction

/-! ### The three layers together -/

theorem encode_of_decodeRequest {w : BitVec 128} {pay : Bytes} (h : decodeRequest w pay = .ok i) :
    wellFormed i = true ∧ encode i = .request w pay := by
  cases hres : isReserved w with
  | true =>
    rw [decodeRequest_of_reserved hres, Except.ok.injEq] at h
    exact h ▸ encode_buildRequest_of_reserved hres pay
  | false =>
    by_cases hlegal : Req.Legal w pay
    · rw [decodeRequest_of_legal hlegal, Except.ok.injEq] at h
      exact h ▸ encode_buildRequest_of_legal hlegal
    · obtain ⟨reason, herr⟩ := decodeRequest_of_illegal hres hlegal
      rw [herr] at h
      contradiction

end Sys2Proof
end

section
/-! PROOFS. An illegal request at the port (R73, R75 step 1), and an offer that waits (R74). -/

namespace Sys2Proof.Machine
open Sys2Proof.Spec

variable {s : State}

theorem step_of_ready_undecoded {o : Offer} {rest : List Offer} {reason : Illegal} (h : Ready s)
    (ho : s.offers = o :: rest) (hd : decode o = .error reason) : step s = (s.accept o rest).illegalRequest := by
  obtain ⟨hr, hs, hf⟩ := h
  simp [step, hr, hs, hf, ho, hd]

theorem exec_of_reserved {i : Instr} (h : isReservedInstr i = true) (s : State) :
    exec i s = .next (refusedWith s .illegalRequest) := by
  cases i <;> first | rfl | contradiction

/-- A request that is not legal is refused, whether the decoder rejects it or names its reserved selector. -/
theorem step_of_ready_illegal {w : BitVec 128} {pay : Bytes} {rest : List Offer} (h : Ready s)
    (ho : s.offers = .request w pay :: rest) (hlegal : ¬ Req.Legal w pay) :
    step s = .next (refusedWith (s.accept (.request w pay) rest) .illegalRequest) := by
  cases hres : isReserved w with
  | true =>
    rw [step_of_ready h ho (decodeRequest_of_reserved hres)]
    exact exec_of_reserved ((isReservedInstr_buildRequest w pay).trans hres) _
  | false =>
    obtain ⟨reason, herr⟩ := decodeRequest_of_illegal hres hlegal
    exact step_of_ready_undecoded h ho herr

end Sys2Proof.Machine
end

section
/-! PROOFS. The statements about the encodings, settled. -/

namespace Sys2Proof.Proofs
open Sys2Proof.Machine Sys2Proof.Spec

/-- Settles O1, layer by layer. -/
theorem decodeOfEncode : Obligations.DecodeOfEncode := by
  intro i hwf
  cases henc : encode i with
  | request w pay => exact henc ▸ decode_encode_of_request henc hwf
  | mpsse item => exact henc ▸ decode_encode_of_mpsse henc hwf
  | spi command => exact henc ▸ decode_encode_of_spi henc hwf

/-- Settles O2, layer by layer. -/
theorem acceptedIsItsOwnEncoding : Obligations.AcceptedIsItsOwnEncoding := by
  intro o i h
  cases o with
  | request w pay => exact encode_of_decodeRequest h
  | mpsse item => exact encode_of_decodeItem h
  | spi command => exact encode_of_decodeSpi h

/-- Settles O3: both sides say that the request is legal. -/
theorem decodesExactlyTheTableRows : Obligations.DecodesExactlyTheTableRows :=
  fun _ _ => decode_request_iff_legal.trans Req.legal_iff_row

/-- Settles O10: what no clause of R73 finds is legal. -/
theorem legalRequestIsDecoded : Obligations.LegalRequestIsDecoded :=
  fun _ _ h => decode_request_iff_legal.2 (Req.not_illegalByRule_iff.1 h)

/-- Settles O9: a request that a clause of R73 finds is not legal. -/
theorem illegalRequestChangesOnlyResult : Obligations.IllegalRequestChangesOnlyResult :=
  fun _ _ _ _ hready ho h => step_of_ready_illegal hready ho fun hlegal => Req.not_illegalByRule_iff.2 hlegal h

/-- Settles O4, word by word. -/
theorem testVectorWordsDecode : Obligations.TestVectorWordsDecode :=
  ⟨rfl, rfl, rfl, rfl, rfl, rfl, rfl, rfl, rfl⟩

/-- Settles O6: each emission is its transactions, whose payloads a transfer can carry. -/
theorem flashEmissionsAreTransactions : Obligations.FlashEmissionsAreTransactions := by
  intro s addr n pay budget d1 d2 d3 op sel desel
  refine ⟨parse_txnOutIn s (fitsTransfer_cmdDummy _ (by simp)), parse_txnOut s (fitsTransfer_cmdDummy _ (by simp)), ?_,
    parse_txnOutIn s (fitsTransfer_cmdDummy _ (by simp)), fun hpay => ?_, fun hn => parse_readBytes s addr hn⟩
  · rw [State.sectorEraseBytes, parse_txnOut s (fitsTransfer_cmdAddr _ _ (by simp)), cmdAddr_eq_addrBytes,
      List.append_nil]
    rfl
  · have hle : pay.length ≤ 65532 := hpay.trans (by decide)
    exact ⟨parse_programBytes s addr hle, parse_programPaceBytes s addr budget hle⟩

/-- Settles O7: an instruction that is not raw appends whole items. -/
theorem bufferStaysWellFramed : Obligations.BufferStaysWellFramed :=
  fun _ _ _ hraw hs h => exec_keeps_framing hraw hs h

end Sys2Proof.Proofs
end

section
/-! PROOFS. The flash commands and the deferred operations as their chains of checks (R75, R100 to R142). -/

namespace Sys2Proof.Machine
open Sys2Proof.Spec

variable {i : Instr} {s t : State}

/-! ### Emissions in the statements' own words -/

theorem encWaitField_eq_header (f : BitVec 16) : encWaitField f = header Config.opcWait (f.toNat + 1) := by
  rw [header, Nat.add_sub_cancel, ← le16_ofNat, BitVec.ofNat_toNat, BitVec.setWidth_eq]
  rfl

theorem encWait_eq_header (c : Nat) : encWait c = header Config.opcWait c := by
  rw [encWait, encWaitField, countField, le16_ofNat, header]

theorem clamp_eq_min_max (v lo hi : Nat) (h : lo ≤ hi) : clamp v lo hi = min hi (max lo v) := by
  unfold clamp
  split_ifs <;> omega

theorem State.pollBytes_eq_pollTxn (s : State) : s.pollBytes = pollTxn s := State.txnOutIn_eq_inTxn s _

theorem State.programBytes_eq_programTxns (s : State) (addr : BitVec 24) (pay : Bytes) :
    s.programBytes addr pay = programTxns s addr pay := by
  rw [State.programBytes, State.txnOut_eq_outTxn, State.txnOut_eq_outTxn, cmdAddr_eq_addrBytes]
  rfl

theorem State.programPaceBytes_eq (s : State) (addr : BitVec 24) (pay : Bytes) (budgetUs : BitVec 32) :
    s.programPaceBytes addr pay budgetUs = programTxns s addr pay ++
      header Config.opcWait (min 65536 (max 1 (budgetUs.toNat * s.sckHz.toNat / 8000000))) := by
  rw [State.programPaceBytes, State.programBytes_eq_programTxns, encWait_eq_header, paceCount,
    clamp_eq_min_max _ _ _ (by decide)]
  rfl

theorem cmdAddr_sectorErase (addr : BitVec 24) : cmdAddr Config.spiSectorErase addr [] = [0xD8] ++ addrBytes addr :=
  (cmdAddr_eq_addrBytes _ addr []).trans (List.append_nil _)

/-! The lengths of R83. -/

@[simp] theorem State.length_encSelect (s : State) : s.encSelect.length = 3 := rfl
@[simp] theorem State.length_encDeselect (s : State) : s.encDeselect.length = 3 := rfl
@[simp] theorem State.length_opcodeBytes (s : State) (op : Byte) : (s.opcodeBytes op).length = 10 := rfl
@[simp] theorem State.length_identifyBytes (s : State) (d1 d2 d3 : Byte) : (s.identifyBytes d1 d2 d3).length = 13 := rfl
@[simp] theorem State.length_sectorEraseBytes (s : State) (addr : BitVec 24) :
    (s.sectorEraseBytes addr).length = 13 := rfl

@[simp] theorem State.length_programBytes (s : State) (addr : BitVec 24) (pay : Bytes) :
    (s.programBytes addr pay).length = pay.length + 23 := by
  simp [State.programBytes]
  omega

@[simp] theorem State.length_programPaceBytes (s : State) (addr : BitVec 24) (pay : Bytes) (budgetUs : BitVec 32) :
    (s.programPaceBytes addr pay budgetUs).length = pay.length + 26 := by
  simp [State.programPaceBytes]

/-! ### Immediate operations -/

theorem request_immediate {e : Bytes} (he : e ≠ []) (r : Nat) (x : Extract) :
    s.request [] (fun s => s.immediate e r x) = .next (writing s e r x) := by
  rw [request_nil, State.immediate_eq_writing s he]

/-- R121 to R125, without the fault gate. -/
theorem fireAndForget_next (s : State) (p : Bytes) :
    s.fireAndForget [] (s.txnOut p) = .next (
      if s.pinsValid = false then refusedWith s .notConfigured
      else if Overflows s (p.length + 9) 0 then refusedWith s .cbufOverflow
      else writing s (outTxn s p) 0 .nothing) := by
  rw [← State.txnOut_eq_outTxn]
  exact request_next_needPins <| request_next_room (s.length_txnOut p) <| request_immediate (txnOut_ne_nil s p) ..

/-- R121, R123 to R125. -/
theorem fireAndForget_gated_next (s : State) (p : Bytes) :
    s.fireAndForget [s.gate] (s.txnOut p) = .next (
      if s.fault.kind ≠ none then refusedWith s .faulted
      else if s.pinsValid = false then refusedWith s .notConfigured
      else if Overflows s (p.length + 9) 0 then refusedWith s .cbufOverflow
      else writing s (outTxn s p) 0 .nothing) :=
  request_next_gate (fireAndForget_next s p)

theorem exec_identify (s : State) :
    exec .identify s = .next (
      if s.fault.kind ≠ none then refusedWith s .faulted
      else if s.pinsValid = false then refusedWith s .notConfigured
      else if Overflows s 13 4 then refusedWith s .cbufOverflow
      else writing s (inTxn s [0x9F, Config.dummyByte, Config.dummyByte, Config.dummyByte]) 4 .identify) := by
  have hbytes : s.identifyBytes Config.dummyByte Config.dummyByte Config.dummyByte =
      inTxn s [0x9F, Config.dummyByte, Config.dummyByte, Config.dummyByte] := State.txnOutIn_eq_inTxn s _
  rw [← hbytes]
  exact request_next_gate <| request_next_needPins <| request_next_room rfl <|
    request_immediate (txnOutIn_ne_nil s _) ..

theorem exec_read (addr : BitVec 24) (n : BitVec 17) (s : State) :
    exec (.read addr n) s = .next (
      if s.fault.kind ≠ none then refusedWith s .faulted
      else if s.pinsValid = false then refusedWith s .notConfigured
      else if n.toNat = 0 ∨ 65532 < n.toNat then refusedWith s .badLength
      else if 2 ^ 24 < addr.toNat + n.toNat then refusedWith s .addrRange
      else if Overflows s (n.toNat + 13) (4 + n.toNat) then refusedWith s .cbufOverflow
      else writing s (readTxn s addr n.toNat) (4 + n.toNat) (.read n.toNat)) := by
  rw [← State.readBytes_eq_readTxn]
  exact request_next_gate <| request_next_needPins <| request_next_countCheck <|
    request_next_check _ (pastTop_iff addr n.toNat) <| request_next_room (s.length_readBytes addr n.toNat) <|
      request_immediate (txnOutIn_ne_nil s _) ..

theorem State.issuePoll_eq_polling (s : State) : s.issuePoll = polling s := by
  rw [State.issuePoll, State.pollBytes_eq_pollTxn]
  rfl

/-! ### Deferred operations -/

/-- An emission by the deferred steps ends as R75 says. -/
theorem request_defer (s : State) (e : Bytes) (r : Nat) :
    s.request [] (fun s => s.defer e r) = .next (appended s e r) := rfl

/-- The emission of a command that has no check of its own (R75, R166). -/
theorem emitCommand_next (s : State) (e : Bytes) (r : Nat) :
    s.emitCommand [] e r = .next (
      if s.fault.kind ≠ none then refusedWith s .faulted
      else if s.pinsValid = false then refusedWith s .notConfigured
      else if Overflows s e.length r then refusedWith s .cbufOverflow
      else appended s e r) :=
  request_next_gate <| request_next_needPins <| request_next_room rfl <| request_defer s e r

/-- The emission of an item that has no check of its own. -/
theorem emitItem_next (s : State) (e : Bytes) (r : Nat) :
    s.emitItem [] e r = .next (
      if s.fault.kind ≠ none then refusedWith s .faulted
      else if Overflows s e.length r then refusedWith s .cbufOverflow
      else appended s e r) :=
  request_next_gate <| request_next_room rfl <| request_defer s e r

/-- The emission of a transfer, whose payload is counted (R79, R81). -/
theorem emitItem_counted_next {n len : Nat} (s : State) (e : Bytes) (r : Nat) (hlen : e.length = len) :
    s.emitItem [countCheck n Config.maxXfer] e r = .next (
      if s.fault.kind ≠ none then refusedWith s .faulted
      else if n = 0 ∨ 65536 < n then refusedWith s .badLength
      else if Overflows s len r then refusedWith s .cbufOverflow
      else appended s e r) :=
  request_next_gate <| request_next_countCheck <| request_next_room hlen <| request_defer s e r

/-! ### Immediate operations that owe a response, to their end (R53, R77) -/

theorem writing_owing_completes {e resp data : Bytes} {r : Nat} {x : Extract} {writes : List TxReply}
    {reads : List RxEvent} (hready : Ready s) (hw : s.txReplies = .ok :: writes) (hpos : 0 < r) (hl : resp.length = s.respOwed + r)
    (hrx : s.rx = resp.map .byte ++ reads) (hdata : extractData x s.respOwed resp = data) :
    ∃ u, step (writing s e r x) = .next u ∧ step u = .next { s with
      cbuf := [], respOwed := 0, rbuf := resp, result := .ok data, tx := s.tx ++ [s.cbuf ++ e], txReplies := writes,
      rx := reads, base := s.respOwed, extract := x } := by
  obtain ⟨hr, hs, hf⟩ := hready
  refine ⟨_, step_flush_write_ok_owing hr hs rfl hw (Nat.add_pos_right _ hpos), ?_⟩
  refine (step_flush_read_bytes (s := { writing s e r x with txReplies := writes, flush := .reading }) hr hs rfl hl hrx
    hdata).trans ?_
  simp [writing, hf]

/-! ### What a deferred operation leaves alone (R72) -/

/-- No call, no fault, nothing of a wait or a flush, and an outcome at once. -/
def EndsQuietly (s t : State) : Prop :=
  t.tx = s.tx ∧ t.rbuf = s.rbuf ∧ t.spuState = s.spuState ∧ t.flush = s.flush ∧ t.fault = s.fault ∧
  t.cleanupFault = s.cleanupFault ∧ t.statusByte = s.statusByte ∧ t.elapsedMs = s.elapsedMs ∧
  (t.result = .ok [] ∨ ∃ reason, t.result = .refused reason)

theorem endsQuietly_refuse (s : State) (reason : Reason) : EndsQuietly s (s.refuse reason) :=
  ⟨rfl, rfl, rfl, rfl, rfl, rfl, rfl, rfl, .inr ⟨reason, rfl⟩⟩

theorem endsQuietly_setPins (s : State) (dir sel desel : Byte) : EndsQuietly s (s.setPins dir sel desel) :=
  ⟨rfl, rfl, rfl, rfl, rfl, rfl, rfl, rfl, .inl rfl⟩

theorem endsQuietly_setClock (s : State) (hz : BitVec 32) : EndsQuietly s (s.setClock hz) :=
  ⟨rfl, rfl, rfl, rfl, rfl, rfl, rfl, rfl, .inl rfl⟩

theorem endsQuietly_defer (s : State) (e : Bytes) (r : Nat) : EndsQuietly s (s.defer e r) :=
  ⟨rfl, rfl, rfl, rfl, rfl, rfl, rfl, rfl, .inl rfl⟩

theorem request_endsQuietly {checks : List Check} {body : State → State} (hbody : EndsQuietly s (body s))
    (h : s.request checks body = .next t) : EndsQuietly s t := by
  rcases request_cases h with ⟨reason, _, rfl⟩ | ⟨_, rfl⟩
  · exact endsQuietly_refuse s reason
  · exact hbody

theorem defer_endsQuietly {checks : List Check} {e : Bytes} {r : Nat}
    (h : s.request checks (fun s => s.defer e r) = .next t) : EndsQuietly s t :=
  request_endsQuietly (endsQuietly_defer s e r) h

/-- A deferred operation writes its configuration or appends its encoding, after its checks. -/
theorem exec_endsQuietly (hi : isDeferred i = true) (h : exec i s = .next t) : EndsQuietly s t := by
  cases i with
  | cfgPins dir sel desel =>
    exact request_endsQuietly (body := (·.setPins dir sel desel)) (endsQuietly_setPins s dir sel desel) h
  | cfgClock hz => exact request_endsQuietly (body := (·.setClock hz)) (endsQuietly_setClock s hz) h
  | flush | identify | powerUp | powerDown | writeEnable | bulkErase | sectorErase | read | waitReady | reserved12 |
      reserved14 | reserved18 => contradiction
  | _ => exact defer_endsQuietly h

/-! ### The port while the block is busy (R74) -/

/-- The waiting offers and the request latch are as they were. -/
def HoldsPort (s t : State) : Prop := t.offers = s.offers ∧ t.req = s.req ∧ t.pay = s.pay

theorem awaitWrite_holdsPort {onOk : State → State} (h : ∀ u, HoldsPort u (onOk u)) :
    HoldsPort s (s.awaitWrite onOk) := by
  rcases awaitWrite_cases s onOk with ⟨_, e⟩ | ⟨_, _, kind, info0, info1, _, _, _, e⟩ | ⟨rest, _, e⟩ <;> rw [e]
  · exact ⟨rfl, rfl, rfl⟩
  · exact ⟨State.raiseFault_offers .., State.raiseFault_req .., State.raiseFault_pay ..⟩
  · exact h _

theorem awaitRead_holdsPort {onBytes : State → Bytes → State} (h : ∀ u r, HoldsPort u (onBytes u r)) :
    HoldsPort s (s.awaitRead onBytes) := by
  rcases awaitRead_cases s onBytes with ⟨_, e⟩ | ⟨rest, kind, info1, _, e⟩ | ⟨r, rest, _, e⟩ <;> rw [e]
  · exact ⟨rfl, rfl, rfl⟩
  · exact ⟨State.raiseFault_offers .., State.raiseFault_req .., State.raiseFault_pay ..⟩
  · exact h _ r

theorem busyTest_holdsPort (s : State) : HoldsPort s s.busyTest := by
  rcases busyTest_cases s with ⟨_, e⟩ | ⟨_, e⟩ <;> rw [e] <;> exact ⟨rfl, rfl, rfl⟩

theorem afterSleep_holdsPort (s : State) : HoldsPort s s.afterSleep := by
  simp only [State.afterSleep]
  split
  · exact ⟨State.raiseFault_offers .., State.raiseFault_req .., State.raiseFault_pay ..⟩
  · exact ⟨rfl, rfl, rfl⟩

/-- Each of the five replies that a busy block waits for leaves the port alone. -/
theorem step_busy_holdsPort (hr : s.resetPin = false) (hbusy : s.spuState ≠ .idle ∨ s.flush ≠ .idle) :
    ∃ t, step s = .next t ∧ HoldsPort s t := by
  cases hs : s.spuState with
  | pollTx => exact ⟨_, step_of_pollTx hr hs, awaitWrite_holdsPort fun _ => ⟨rfl, rfl, rfl⟩⟩
  | pollRx => exact ⟨_, step_of_pollRx hr hs, awaitRead_holdsPort fun u r => busyTest_holdsPort (u.storePoll r)⟩
  | sleep =>
    refine ⟨_, step_of_sleep hr hs, ?_⟩
    rcases onSleep_cases s with ⟨_, e⟩ | ⟨k, _, e⟩ <;> rw [e]
    · exact ⟨rfl, rfl, rfl⟩
    · exact afterSleep_holdsPort { s with wakes := k }
  | idle =>
    cases hf : s.flush with
    | writing =>
      refine ⟨_, step_of_flush_writing hr hs hf, awaitWrite_holdsPort fun u => ?_⟩
      split <;> exact ⟨rfl, rfl, rfl⟩
    | reading => exact ⟨_, step_of_flush_reading hr hs hf, awaitRead_holdsPort fun _ _ => ⟨rfl, rfl, rfl⟩⟩
    | idle => exact absurd hbusy (by simp [hs, hf])

end Sys2Proof.Machine
end

section
/-! PROOFS. What the requests and the stream-level rows do, settled. -/

namespace Sys2Proof.Proofs
open Sys2Proof.Machine Sys2Proof.Spec

/-- Settles O5, from the lengths of the parts. -/
theorem emittedLengths : Obligations.EmittedLengths := by
  intro s addr n pay budget d1 d2 d3 op c
  exact ⟨s.length_encSelect, s.length_encDeselect, length_encOut c, length_encOutIn c, length_encWait c,
    s.length_txnOut pay, s.length_txnOutIn pay, s.length_opcodeBytes op, s.length_identifyBytes d1 d2 d3, s.length_sectorEraseBytes addr,
    s.length_pollBytes, s.length_programBytes addr pay, s.length_programPaceBytes addr pay budget,
    s.length_readBytes addr n.toNat⟩

/-- Settles O20: the gate, then the check of the frequency. -/
theorem cfgClockMeaning : Obligations.CfgClockMeaning :=
  fun hz s => ⟨rfl, request_next_gate <| request_next_check _ (beq_iff_eq (a := hz)) <| request_nil s (·.setClock hz)⟩

/-- Settles O23. -/
theorem dataOutInMeaning : Obligations.DataOutInMeaning := by
  refine fun n s => ⟨rfl, ?_⟩
  rw [← encOutIn_eq_header]
  exact request_next_gate <| request_next_countCheck <| request_next_room (length_encOutIn _) <| request_defer ..

/-- Settles O31. -/
theorem identifyMeaning : Obligations.IdentifyMeaning := fun s => ⟨rfl, exec_identify s⟩

/-- Settles O33: the three commands differ in their opcode alone. -/
theorem singleOpcodeMeaning : Obligations.SingleOpcodeMeaning := by
  intro i selector opcode s hi
  simp only [List.mem_cons, List.not_mem_nil, or_false, Prod.mk.injEq] at hi
  rcases hi with ⟨rfl, rfl, rfl⟩ | ⟨rfl, rfl, rfl⟩ | ⟨rfl, rfl, rfl⟩ <;>
    exact ⟨rfl, fireAndForget_gated_next s _⟩

/-- Settles O34. -/
theorem powerDownMeaning : Obligations.PowerDownMeaning := fun s => ⟨rfl, fireAndForget_next s _⟩

/-- Settles O35. -/
theorem sectorEraseMeaning : Obligations.SectorEraseMeaning := by
  refine fun addr s => ⟨rfl, ?_⟩
  rw [← cmdAddr_sectorErase]
  exact fireAndForget_gated_next s _

/-- Settles O37, check by check. -/
theorem programPageMeaning : Obligations.ProgramPageMeaning := by
  refine fun addr pay s => ⟨rfl, ?_⟩
  rw [← State.programBytes_eq_programTxns]
  exact request_next_gate <| request_next_needPins <| request_next_countCheck <|
    request_next_check _ (crossesPage_iff addr pay.length) <| request_next_room (s.length_programBytes addr pay) <|
      request_defer ..

/-- Settles O38, check by check. -/
theorem programPagePaceMeaning : Obligations.ProgramPagePaceMeaning := by
  refine fun addr pay budgetUs s => ⟨rfl, ?_⟩
  have hclock : (!s.clkValid) = true ↔ s.sckHz = 0 := by simp [State.clkValid]
  rw [← State.programPaceBytes_eq]
  exact request_next_gate <| request_next_needPins <| request_next_countCheck <|
    request_next_check _ (crossesPage_iff addr pay.length) <| request_next_check _ hclock <|
      request_next_room (s.length_programPaceBytes addr pay budgetUs) <| request_defer ..

/-- Settles O40. -/
theorem readMeaning : Obligations.ReadMeaning := fun addr n s => ⟨rfl, exec_read addr n s⟩

/-- Settles O42: the checks, then the first poll of the latched operands. -/
theorem waitReadyMeaning : Obligations.WaitReadyMeaning := by
  refine fun pollMs budgetMs s => ⟨rfl, ?_⟩
  rw [← State.issuePoll_eq_polling]
  exact request_next_gate <| request_next_needPins <| request_next_check _ (beq_iff_eq (a := pollMs)) <|
    request_next_room s.length_pollBytes <| request_nil s (·.startWait pollMs budgetMs)

/-- Settles O55: each of the three rows refuses outright. -/
theorem reservedSelectorsMeaning : Obligations.ReservedSelectorsMeaning :=
  fun _ _ _ _ _ s => ⟨exec_of_reserved rfl s, exec_of_reserved rfl s, exec_of_reserved rfl s⟩

/-- Settles O56, item by item. -/
theorem mpsseItemsMeaning : Obligations.MpsseItemsMeaning := by
  intro value dir payload f s
  rw [← encOut_eq_header, ← encOutIn_eq_header, ← encWaitField_eq_header]
  refine ⟨emitItem_next s _ _, emitItem_counted_next s _ _ ?_, emitItem_counted_next s _ _ ?_, emitItem_next s _ _⟩
  · rw [List.length_append, length_encOut, Nat.add_comm]
  · rw [List.length_append, length_encOutIn, Nat.add_comm]

/-- Settles O57: each command's transaction, emitted after the same checks. -/
theorem spiCommandsMeaning : Obligations.SpiCommandsMeaning := by
  intro i e owed s d1 d2 d3 addr hi
  rw [← cmdAddr_sectorErase] at hi
  simp only [← State.txnOut_eq_outTxn, ← State.txnOutIn_eq_inTxn, List.mem_cons, List.not_mem_nil, or_false,
    Prod.mk.injEq] at hi
  rcases hi with ⟨rfl, rfl, rfl⟩ | ⟨rfl, rfl, rfl⟩ | ⟨rfl, rfl, rfl⟩ | ⟨rfl, rfl, rfl⟩ | ⟨rfl, rfl, rfl⟩ |
    ⟨rfl, rfl, rfl⟩ | ⟨rfl, rfl, rfl⟩ <;> exact emitCommand_next s _ _

/-- Settles O32: the accepted request owes the echo and three bytes, and its flush takes them. -/
theorem identifyReturnsThreeBytes : Obligations.IdentifyReturnsThreeBytes := by
  intro s writes earlier echo b1 b2 b3 reads hready hfault hpins hroom hw hearlier hrx
  obtain ⟨u, hwrite, hread⟩ := writing_owing_completes (r := 4) hready hw (by decide) (by simp [hearlier]) hrx
    (extractData_identify hearlier echo b1 b2 b3)
  refine ⟨_, u, ?_, hwrite, hread⟩
  rw [exec_identify, if_neg (not_not.2 hfault), if_neg (by simp [hpins]), if_neg hroom]

/-- Settles O41 in the same way: the operands pass the checks, so what is owed is four echo bytes and the data. -/
theorem readReturnsTheData : Obligations.ReadReturnsTheData := by
  intro s addr n writes earlier echo data reads hready hfault hpins hpos hmax htop hroom hw hearlier hecho hdata hrx
  obtain ⟨u, hwrite, hread⟩ := writing_owing_completes (r := 4 + n.toNat) hready hw (by omega)
    (by simp only [List.length_append]; omega) hrx (extractData_read hearlier hecho hdata)
  refine ⟨_, u, ?_, hwrite, hread⟩
  rw [exec_read, if_neg (not_not.2 hfault), if_neg (by simp [hpins]), if_neg (by omega), if_neg (by omega),
    if_neg hroom]

/-- Settles O52. -/
theorem deferredMakesNoCall : Obligations.DeferredMakesNoCall :=
  fun _ _ _ h hx => exec_endsQuietly h hx

/-- Settles O11: `BUSY` is 1 in a poll, in a sleep and in a flush. -/
theorem offerWaitsWhileBusy : Obligations.OfferWaitsWhileBusy :=
  fun s hr hbit => step_busy_holdsPort hr (s.busy_iff.1 (s.statusWord_busy ▸ hbit))

end Sys2Proof.Proofs
end

section
/-! PROOFS. The legality rule of `PINCFG` as the one bit it asks for (R23, R100). -/

namespace Sys2Proof.Machine

theorem popCount_eq_card (x : Byte) : popCount x = {i ∈ Finset.range 8 | x.getLsbD i = true}.card := by
  rw [← Nat.count_eq_card_filter_range]
  simp only [popCount, Nat.count, Bool.decide_eq_true]

theorem popCount_twoPow {k : Nat} (hk : k < 8) : popCount (BitVec.twoPow 8 k) = 1 := by
  rw [popCount_eq_card, Finset.card_eq_one]
  refine ⟨k, Finset.ext fun i => ?_⟩
  simp only [Finset.mem_filter, Finset.mem_range, BitVec.getLsbD_twoPow, Bool.and_eq_true, decide_eq_true_eq,
    Finset.mem_singleton]
  omega

/-- A byte has exactly one bit set when it is a power of two: the set positions below 8 are then a singleton. -/
theorem popCount_eq_one_iff (x : Byte) : popCount x = 1 ↔ ∃ k < 8, x = BitVec.twoPow 8 k := by
  constructor
  · intro h
    obtain ⟨k, hset⟩ := Finset.card_eq_one.1 (popCount_eq_card x ▸ h)
    have hbit (i : Nat) : i < 8 ∧ x.getLsbD i = true ↔ i = k := by
      rw [← Finset.mem_singleton (a := k), ← hset, Finset.mem_filter, Finset.mem_range]
    obtain ⟨hk, -⟩ := (hbit k).2 rfl
    refine ⟨k, hk, BitVec.eq_of_getLsbD_eq fun i hi => ?_⟩
    rw [Bool.eq_iff_iff, BitVec.getLsbD_twoPow, decide_eq_true hk, Bool.true_and, decide_eq_true_eq]
    exact (and_iff_right hi).symm.trans ((hbit i).trans eq_comm)
  · rintro ⟨k, hk, rfl⟩
    exact popCount_twoPow hk

theorem twoPow_and_ne_zero_iff (dir : Byte) {k : Nat} (hk : k < 8) :
    BitVec.twoPow 8 k &&& dir ≠ 0 ↔ dir.getLsbD k = true := by
  have hne : BitVec.twoPow 8 k ≠ 0#8 := fun h => by
    simpa [BitVec.getLsbD_twoPow, hk] using congrArg (·.getLsbD k) h
  rw [BitVec.twoPow_and]
  split_ifs with hbit
  · exact iff_of_true hne hbit
  · exact iff_of_false (not_not.2 rfl) hbit

/-- R100: the two values differ in one bit, and that bit is an output. -/
theorem pinsLegal_iff (dir sel desel : Byte) :
    pinsLegal dir sel desel = true ↔ ∃ k : Fin 8, sel ^^^ desel = 1#8 <<< k.val ∧ dir.getLsbD k.val = true := by
  simp only [pinsLegal, Bool.and_eq_true, beq_iff_eq, bne_iff_ne, popCount_eq_one_iff, ← BitVec.twoPow_eq]
  constructor
  · rintro ⟨⟨k, hk, hx⟩, hdir⟩
    exact ⟨⟨k, hk⟩, hx, (twoPow_and_ne_zero_iff dir hk).1 (hx ▸ hdir)⟩
  · rintro ⟨k, hx, hdir⟩
    exact ⟨⟨k, k.isLt, hx⟩, hx ▸ (twoPow_and_ne_zero_iff dir k.isLt).2 hdir⟩

theorem not_pinsLegal_iff (dir sel desel : Byte) :
    (!pinsLegal dir sel desel) = true ↔
      ¬ ∃ k : Fin 8, sel ^^^ desel = 1#8 <<< k.val ∧ dir.getLsbD k.val = true := by
  rw [Bool.not_eq_true', Bool.eq_false_iff, ne_eq, pinsLegal_iff]

end Sys2Proof.Machine
end

section
/-! PROOFS. What the configuration of the pins and the primitives do, settled. -/

namespace Sys2Proof.Proofs
open Sys2Proof.Machine Sys2Proof.Spec

/-- Settles O19: the gate, then the legality of the three bytes. -/
theorem cfgPinsMeaning : Obligations.CfgPinsMeaning := by
  refine fun dir sel desel s => ⟨rfl, ?_⟩
  rw [← ite_not (p := ∃ k : Fin 8, _)]
  exact request_next_gate <| request_next_check _ (not_pinsLegal_iff dir sel desel) <|
    request_nil s (·.setPins dir sel desel)

/-- Settles O21: both are checked as a command with no check of its own. -/
theorem chipSelectMeaning : Obligations.ChipSelectMeaning :=
  fun s => ⟨rfl, rfl, emitCommand_next s s.encSelect 0, emitCommand_next s s.encDeselect 0⟩

/-- Settles O22. -/
theorem dataOutMeaning : Obligations.DataOutMeaning := by
  refine fun n s => ⟨rfl, ?_⟩
  rw [← encOut_eq_header]
  exact emitItem_counted_next s _ 0 (length_encOut n.toNat)

/-- Settles O24. -/
theorem waitMaskMeaning : Obligations.WaitMaskMeaning := by
  refine fun c s => ⟨rfl, ?_⟩
  rw [← encWait_eq_header]
  exact emitItem_counted_next s _ 0 (length_encWait c.toNat)

/-- Settles O25: the payload is its own encoding, and its length is the count that is checked. -/
theorem bytesMeaning : Obligations.BytesMeaning :=
  fun pay s => ⟨rfl, emitItem_counted_next s pay 0 rfl⟩

end Sys2Proof.Proofs
end

section
/-! PROOFS. The pacing count: `clamp` case by case, and the product that is taken in 64 bits (R126). -/

namespace Sys2Proof.Machine

theorem clamp_of_lt {v lo : Nat} (hi : Nat) (h : v < lo) : clamp v lo hi = lo := if_pos h

theorem clamp_of_gt {v lo hi : Nat} (hle : lo ≤ hi) (h : hi < v) : clamp v lo hi = hi := by
  rw [clamp, if_neg (hle.trans h.le).not_gt, if_pos h]

theorem clamp_of_mem {v lo hi : Nat} (hlo : lo ≤ v) (hhi : v ≤ hi) : clamp v lo hi = v := by
  rw [clamp, if_neg hlo.not_gt, if_neg hhi.not_gt]

theorem clamp_mem (v : Nat) {lo hi : Nat} (h : lo ≤ hi) : lo ≤ clamp v lo hi ∧ clamp v lo hi ≤ hi := by
  rw [clamp_eq_min_max v lo hi h]
  exact ⟨le_min h (le_max_left lo v), min_le_left _ _⟩

theorem mul_toNat_lt_two_pow_64 (a b : BitVec 32) : a.toNat * b.toNat < 2 ^ 64 :=
  calc a.toNat * b.toNat < 2 ^ 32 * 2 ^ 32 := Nat.mul_lt_mul'' a.isLt b.isLt
    _ = 2 ^ 64 := (pow_add 2 32 32).symm

end Sys2Proof.Machine
end

section
/-! PROOFS. The statement about the pacing count, settled. -/

namespace Sys2Proof.Proofs
open Sys2Proof.Machine Sys2Proof.Spec

/-- Settles O39: `paceCount` is the quotient under `clamp`, whose range 1 to 65536 is not empty. -/
theorem paceCountIsClampedQuotient : Obligations.PaceCountIsClampedQuotient := by
  intro budgetUs sckHz
  have hrange : 1 ≤ Config.maxXfer := by decide
  obtain ⟨hlo, hhi⟩ := clamp_mem (budgetUs.toNat * sckHz.toNat / 8000000) hrange
  exact ⟨mul_toNat_lt_two_pow_64 budgetUs sckHz, hlo, hhi, clamp_of_lt _, clamp_of_gt hrange, clamp_of_mem⟩

end Sys2Proof.Proofs
end

section
/-! PROOFS. What the reply to each of a wait's three calls can do, and what it does (R143 to R147). -/

namespace Sys2Proof.Machine
open Sys2Proof.Spec

variable {s t : State}

/-! ### Every outcome of a reply -/

/-- How a wait ends that does not end with `OK` (R147, R170). -/
def EndsFaulted (t : State) : Prop := t.spuState = .idle ∧ ∃ kind, t.result = .fault kind ∧ t.fault.kind ≠ none

theorem endsFaulted_raiseFault (s : State) (kind : FaultKind) (info0 info1 : BitVec 33) :
    EndsFaulted (s.raiseFault kind info0 info1) :=
  ⟨rfl, kind, rfl, raiseFault_latches s kind info0 info1⟩

theorem onPollWrite_outcomes (s : State) :
    (s.txReplies = [] ∧ s.onPollWrite = s) ∨ EndsFaulted s.onPollWrite ∨
    (∃ rest, s.txReplies = .ok :: rest ∧ s.onPollWrite = { s with txReplies := rest, spuState := .pollRx }) := by
  rcases awaitWrite_cases s fun u => { u with spuState := .pollRx } with held | ⟨_, _, kind, i0, i1, _, _, _, e⟩ | taken
  · exact .inl held
  · refine .inr (.inl ?_)
    rw [State.onPollWrite, e]
    exact endsFaulted_raiseFault _ kind i0 i1
  · exact .inr (.inr taken)

theorem onPollRead_outcomes (s : State) :
    (collect s.respOwed s.rx = none ∧ s.onPollRead = s) ∨ EndsFaulted s.onPollRead ∨
    (∃ r rest, r.length = s.respOwed ∧ s.rx = r.map .byte ++ rest ∧
      s.onPollRead = (({ s with rx := rest } : State).storePoll r).busyTest) := by
  rcases awaitRead_cases s fun u r => (u.storePoll r).busyTest with held | ⟨_, kind, i1, _, e⟩ | ⟨r, rest, hc, e⟩
  · exact .inl held
  · refine .inr (.inl ?_)
    rw [State.onPollRead, e]
    exact endsFaulted_raiseFault _ kind 1 i1
  · obtain ⟨hlen, hrx⟩ := collect_bytes hc
    exact .inr (.inr ⟨r, rest, hlen, hrx, e⟩)

/-- R146: the strict comparison with the budget. -/
theorem afterSleep_eq (s : State) :
    s.afterSleep =
      if s.budgetMs.toNat < s.nextElapsed.toNat then
        faultedWith { s with elapsedMs := s.nextElapsed } .waitTimeout s.nextElapsed (s.budgetMs.setWidth 33)
      else polling { s with elapsedMs := s.nextElapsed } := by
  rcases afterSleep_cases s with ⟨hlate, e⟩ | ⟨hwithin, e⟩
  · rw [if_pos hlate, e, raiseFault_eq_faultedWith]
  · rw [if_neg (not_lt.2 hwithin), e, State.issuePoll_eq_polling]

theorem onSleep_wake {wakes : Nat} (hw : s.wakes = wakes + 1) :
    s.onSleep =
      if s.budgetMs.toNat < s.nextElapsed.toNat then
        faultedWith { s with wakes := wakes, elapsedMs := s.nextElapsed } .waitTimeout s.nextElapsed
          (s.budgetMs.setWidth 33)
      else polling { s with wakes := wakes, elapsedMs := s.nextElapsed } := by
  have hwoken : s.onSleep = ({ s with wakes := wakes } : State).afterSleep := by rw [State.onSleep, hw]
  exact hwoken.trans (afterSleep_eq _)

theorem onSleep_outcomes (s : State) :
    (s.wakes = 0 ∧ s.onSleep = s) ∨ EndsFaulted s.onSleep ∨
    (∃ wakes, s.wakes = wakes + 1 ∧ s.nextElapsed.toNat ≤ s.budgetMs.toNat ∧
      s.onSleep = polling { s with wakes := wakes, elapsedMs := s.nextElapsed }) := by
  obtain held | ⟨wakes, hw, -⟩ := onSleep_cases s
  · exact .inl held
  · rw [onSleep_wake hw]
    split
    · rw [← raiseFault_eq_faultedWith]
      exact .inr (.inl (endsFaulted_raiseFault ..))
    · next hwithin => exact .inr (.inr ⟨wakes, hw, not_lt.1 hwithin, rfl⟩)

/-! ### A poll answered -/

/-- R144: the reply `earlier ++ [echo, status]` is kept and its last byte is the status; `reads` is left to deliver. -/
def statusStored (s : State) (earlier : Bytes) (echo status : Byte) (reads : List RxEvent) : State :=
  { s with
    rx := reads, rbuf := earlier ++ [echo, status], cbuf := [], respOwed := 0, statusByte := status,
    statusValid := true }

/-- R144's `r[base + 1]` is the byte after the echo. -/
theorem polledByte_after_echo {earlier : Bytes} (hbase : earlier.length = s.base) (echo status : Byte) :
    s.polledByte (earlier ++ [echo, status]) = status := by
  simp [State.polledByte, ← hbase]

theorem step_poll_read {earlier : Bytes} {echo status : Byte} {reads : List RxEvent} (hr : s.resetPin = false)
    (hs : s.spuState = .pollRx) (howed : s.respOwed = s.base + 2) (hbase : earlier.length = s.base)
    (hrx : s.rx = (earlier ++ [echo, status]).map .byte ++ reads) :
    step s = .next (statusStored s earlier echo status reads).busyTest := by
  have hlen : (earlier ++ [echo, status]).length = s.respOwed := by simp [howed, hbase]
  rw [step_of_pollRx hr hs, State.onPollRead, awaitRead_ok hlen hrx, State.storePoll,
    polledByte_after_echo (s := { s with rx := reads }) hbase, statusStored]

theorem busyTest_statusStored_ready {earlier : Bytes} {echo status : Byte} {reads : List RxEvent}
    (hready : status.getLsbD 0 = false) :
    (statusStored s earlier echo status reads).busyTest =
      { statusStored s earlier echo status reads with spuState := .idle, result := .ok [] } :=
  if_neg (Bool.eq_false_iff.1 hready)

theorem busyTest_statusStored_busy {earlier : Bytes} {echo status : Byte} {reads : List RxEvent}
    (hbusy : status.getLsbD 0 = true) :
    (statusStored s earlier echo status reads).busyTest =
      { statusStored s earlier echo status reads with spuState := .sleep } :=
  if_pos hbusy

/-! ### How a wait ends -/

/-- R144, R145: the end of a wait with `OK`, by the reply that it took last. -/
structure EndsReady (s t : State) : Prop where
  result_ok : t.result = .ok []
  status_stored : t.statusValid = true
  not_busy : t.statusByte.getLsbD 0 = false
  fault_unchanged : t.fault = s.fault
  rbuf_taken : s.rx = t.rbuf.map .byte ++ t.rx
  rbuf_owed : t.rbuf.length = s.respOwed
  status_after_echo : s.respOwed = s.base + 2 → t.rbuf[s.base + 1]? = some t.statusByte

theorem onPollRead_ends (hend : s.onPollRead.spuState = .idle) (hs : s.spuState = .pollRx) :
    EndsReady s s.onPollRead ∨ EndsFaulted s.onPollRead := by
  obtain ⟨-, e⟩ | hfault | ⟨r, rest, hlen, hrx, e⟩ := onPollRead_outcomes s
  · rw [e, hs] at hend
    contradiction
  · exact .inr hfault
  · rcases busyTest_cases (({ s with rx := rest } : State).storePoll r) with ⟨_, htest⟩ | ⟨hready, htest⟩
    · rw [e, htest] at hend
      contradiction
    · rw [e, htest]
      refine .inl ⟨rfl, rfl, hready, rfl, hrx, hlen, fun howed => ?_⟩
      have hin : s.base + 1 < r.length := by omega
      simp [State.polledByte, hin]

/-- A wait ends when a poll's reply is not busy, or with a fault. -/
theorem wait_step_ends (hr : s.resetPin = false) (hwait : s.spuState ≠ .idle) (hx : step s = .next t)
    (hend : t.spuState = .idle) : s.spuState = .pollRx ∧ EndsReady s t ∨ EndsFaulted t := by
  cases hs : s.spuState with
  | idle => exact absurd hs hwait
  | pollTx =>
    rw [step_of_pollTx hr hs] at hx
    cases hx
    obtain ⟨-, e⟩ | hfault | ⟨rest, -, e⟩ := onPollWrite_outcomes s
    · rw [e, hs] at hend
      contradiction
    · exact .inr hfault
    · rw [e] at hend
      contradiction
  | pollRx =>
    rw [step_of_pollRx hr hs] at hx
    cases hx
    exact (onPollRead_ends hend hs).imp_left fun h => ⟨rfl, h⟩
  | sleep =>
    rw [step_of_sleep hr hs] at hx
    cases hx
    obtain ⟨-, e⟩ | hfault | ⟨wakes, -, -, e⟩ := onSleep_outcomes s
    · rw [e, hs] at hend
      contradiction
    · exact .inr hfault
    · rw [e] at hend
      contradiction

end Sys2Proof.Machine
end

section
/-! PROOFS. One reply of a wait, and its end, settled. -/

namespace Sys2Proof.Proofs
open Sys2Proof.Machine Sys2Proof.Spec

/-- Settles O43: the reply is stored and bit 0 of its status byte decides. -/
theorem pollReadReply : Obligations.PollReadReply := by
  intro s earlier echo status reads hr hs howed hbase hrx
  rw [step_poll_read hr hs howed hbase hrx]
  refine ⟨fun hready => ?_, fun hbusy => ?_⟩
  · rw [busyTest_statusStored_ready hready]; rfl
  · rw [busyTest_statusStored_busy hbusy]; rfl

/-- Settles O44: within the budget the sum does not wrap. -/
theorem wakeReply : Obligations.WakeReply := by
  intro s wakes hr hs hw hwithin
  refine ⟨s.nextElapsed, State.toNat_nextElapsed hwithin, ?_⟩
  rw [step_of_sleep hr hs, onSleep_wake hw]

/-- Settles O45: in a state with the invariant the owed bytes end with the poll's two. -/
theorem waitNeverOkWhileBusy : Obligations.WaitNeverOkWhileBusy := by
  intro s t hr hwait hx hend
  obtain ⟨hs, h⟩ | ⟨-, hfault⟩ := wait_step_ends hr hwait hx hend
  · exact .inl ⟨h.result_ok, hs, h.status_stored, h.not_busy, h.fault_unchanged, h.rbuf_taken, h.rbuf_owed,
      fun hinv => h.status_after_echo (hinv.poll_sent (.inr hs)).2⟩
  · exact .inr hfault

end Sys2Proof.Proofs
end

section
/-! PROOFS. A wait poll by poll: while the answers are busy and the budget lasts, each round of three replies ends in the
next poll (R142 to R148). -/

namespace Sys2Proof.Machine
open Sys2Proof.Spec

variable {s t u v : State} {earlier : Bytes} {echo status : Byte} {writes : List TxReply} {reads : List RxEvent} {wakes : Nat}

/-- R142: a poll's `TxWrite` is outstanding. The read side delivers `earlier`, the response owed before the poll, and then
`reads`, which begins with the poll's two bytes; `writes` and `wakes` are the other replies to come. -/
structure PollSent (s : State) (earlier : Bytes) (writes : List TxReply) (reads : List RxEvent) (wakes : Nat) : Prop where
  not_reset : s.resetPin = false
  sent : s.spuState = .pollTx
  owed : s.respOwed = s.base + 2
  earlier_owed : earlier.length = s.base
  writes_eq : s.txReplies = writes
  reads_eq : s.rx = earlier.map .byte ++ reads
  wakes_eq : s.wakes = wakes

/-- What `k` busy rounds change of a wait: `k` intervals have passed, and `k` polls more are sent (R146). -/
structure PolledOn (k : Nat) (s u : State) : Prop where
  pollMs_eq : u.pollMs = s.pollMs
  budgetMs_eq : u.budgetMs = s.budgetMs
  fault_eq : u.fault = s.fault
  poll_eq : pollTxn u = pollTxn s
  elapsed_eq : u.elapsedMs.toNat = s.elapsedMs.toNat + k * s.pollMs.toNat
  tx_eq : u.tx = s.tx ++ List.replicate k (pollTxn s)

theorem PolledOn.zero (s : State) : PolledOn 0 s s := ⟨rfl, rfl, rfl, rfl, by simp, by simp⟩

theorem PolledOn.succ {k : Nat} (h : PolledOn 1 s u) (hk : PolledOn k u v) : PolledOn (k + 1) s v where
  pollMs_eq := hk.pollMs_eq.trans h.pollMs_eq
  budgetMs_eq := hk.budgetMs_eq.trans h.budgetMs_eq
  fault_eq := hk.fault_eq.trans h.fault_eq
  poll_eq := hk.poll_eq.trans h.poll_eq
  elapsed_eq := by rw [hk.elapsed_eq, h.elapsed_eq, h.pollMs_eq]; ring
  tx_eq := by rw [hk.tx_eq, h.tx_eq, h.poll_eq, List.append_assoc, ← List.replicate_add, Nat.add_comm]

/-- The interval after these rounds is added without a wrap (R146). -/
theorem PolledOn.toNat_nextElapsed {k : Nat} (h : PolledOn k s u)
    (hwithin : s.elapsedMs.toNat + k * s.pollMs.toNat ≤ s.budgetMs.toNat) :
    u.nextElapsed.toNat = s.elapsedMs.toNat + (k + 1) * s.pollMs.toNat := by
  rw [State.toNat_nextElapsed (by rwa [h.elapsed_eq, h.budgetMs_eq]), h.elapsed_eq, h.pollMs_eq]
  ring

/-- A poll that is sent and answered, to the busy test (R143 to R145). -/
theorem PollSent.run_answered (h : PollSent s earlier (.ok :: writes) (pollBytesIn (echo, status) ++ reads) wakes)
    (n : Nat) :
    core.run (n + 2) s =
      core.run n (statusStored { s with txReplies := writes, spuState := .pollRx } earlier echo status reads).busyTest := by
  rw [run_succ (step_poll_write_ok h.not_reset h.sent h.writes_eq)]
  refine run_succ (step_poll_read h.not_reset rfl h.owed h.earlier_owed ?_)
  simp [h.reads_eq, pollBytesIn]

/-- The state asleep after a busy answer (R145). -/
def asleepAfter (s : State) (earlier : Bytes) (echo status : Byte) (writes : List TxReply) (reads : List RxEvent) : State :=
  { statusStored { s with txReplies := writes } earlier echo status reads with spuState := .sleep }

theorem PollSent.run_asleep (h : PollSent s earlier (.ok :: writes) (pollBytesIn (echo, status) ++ reads) wakes)
    (hbusy : status.getLsbD 0 = true) (n : Nat) :
    core.run (n + 2) s = core.run n (asleepAfter s earlier echo status writes reads) := by
  rw [h.run_answered n, busyTest_statusStored_busy hbusy]
  rfl

/-- The state that a `Wake` leaves after a busy answer, before the budget is looked at (R146). -/
def wokenAfter (s : State) (earlier : Bytes) (echo status : Byte) (writes : List TxReply) (reads : List RxEvent)
    (wakes : Nat) : State :=
  { asleepAfter s earlier echo status writes reads with wakes := wakes, elapsedMs := s.nextElapsed }

theorem step_asleepAfter (hr : s.resetPin = false) (hw : s.wakes = wakes + 1) :
    step (asleepAfter s earlier echo status writes reads) = .next (
      if s.budgetMs.toNat < s.nextElapsed.toNat then
        faultedWith (wokenAfter s earlier echo status writes reads wakes) .waitTimeout s.nextElapsed
          (s.budgetMs.setWidth 33)
      else polling (wokenAfter s earlier echo status writes reads wakes)) :=
  (step_of_sleep (s := asleepAfter s earlier echo status writes reads) hr rfl).trans
    (congrArg Host.Outcome.next (onSleep_wake hw))

/-- A round: a busy answer within the budget ends in the next poll, which is alone in its transfer. -/
theorem PollSent.busy_round
    (h : PollSent s earlier (.ok :: writes) (pollBytesIn (echo, status) ++ reads) (wakes + 1))
    (hbusy : status.getLsbD 0 = true) (hwithin : s.elapsedMs.toNat + s.pollMs.toNat ≤ s.budgetMs.toNat) :
    ∃ u : State, (∀ n, core.run (n + 3) s = core.run n u) ∧ PollSent u [] writes reads wakes ∧ PolledOn 1 s u := by
  have helapsed : s.nextElapsed.toNat = s.elapsedMs.toNat + s.pollMs.toNat := State.toNat_nextElapsed (by omega)
  have hbudget : ¬ s.budgetMs.toNat < s.nextElapsed.toNat := by omega
  refine ⟨polling (wokenAfter s earlier echo status writes reads wakes), fun n => ?_,
    ⟨h.not_reset, rfl, rfl, rfl, rfl, rfl, rfl⟩, ⟨rfl, rfl, rfl, rfl, ?_, rfl⟩⟩
  · rw [h.run_asleep hbusy (n + 1), run_succ (step_asleepAfter h.not_reset h.wakes_eq), if_neg hbudget]
  · rw [Nat.one_mul]
    exact helapsed

/-- As many rounds as there are busy answers, while the budget lasts (R148). Only the first poll has `earlier` before it. -/
theorem PollSent.busy_rounds {polls : List (Byte × Byte)}
    (h : PollSent s earlier (List.replicate polls.length .ok ++ writes) (polls.flatMap pollBytesIn ++ reads)
      (polls.length + wakes))
    (hbusy : ∀ p ∈ polls, p.2.getLsbD 0 = true)
    (hwithin : s.elapsedMs.toNat + polls.length * s.pollMs.toNat ≤ s.budgetMs.toNat) :
    ∃ u : State, (∀ n, core.run (3 * polls.length + n) s = core.run n u) ∧
      PollSent u (if polls = [] then earlier else []) writes reads wakes ∧ PolledOn polls.length s u := by
  induction polls generalizing s earlier with
  | nil => exact ⟨s, fun n => by simp, by simpa using h, .zero s⟩
  | cons p polls ih =>
    obtain ⟨hp, hpolls⟩ := List.forall_mem_cons.1 hbusy
    rw [List.length_cons, Nat.succ_mul] at hwithin
    have hfirst : PollSent s earlier (.ok :: (List.replicate polls.length .ok ++ writes))
        (pollBytesIn p ++ (polls.flatMap pollBytesIn ++ reads)) (polls.length + wakes + 1) := by
      simpa [List.replicate_succ, Nat.add_right_comm] using h
    obtain ⟨v, hrun, hsent, hon⟩ := hfirst.busy_round hp (by omega)
    have hleft : v.elapsedMs.toNat + polls.length * v.pollMs.toNat ≤ v.budgetMs.toNat := by
      rw [hon.elapsed_eq, hon.pollMs_eq, hon.budgetMs_eq]
      omega
    obtain ⟨u, hrest, hend, hmore⟩ := ih hsent hpolls hleft
    refine ⟨u, fun n => ?_, by simpa using hend, hon.succ hmore⟩
    rw [← hrest n, ← hrun, List.length_cons]
    congr 1
    omega

/-! ### The two ends -/

/-- A poll answered ready ends the wait (R145). -/
theorem PollSent.run_ready (h : PollSent s earlier (.ok :: writes) (pollBytesIn (echo, status) ++ reads) wakes)
    (hready : status.getLsbD 0 = false) :
    core.run 2 s = .next { statusStored { s with txReplies := writes } earlier echo status reads with
      spuState := .idle, result := .ok [] } := by
  rw [h.run_answered 0, busyTest_statusStored_ready hready]
  rfl

/-- A busy answer to the last poll of the budget times the wait out (R146). -/
theorem PollSent.run_timeout
    (h : PollSent s earlier (.ok :: writes) (pollBytesIn (echo, status) ++ reads) (wakes + 1))
    (hbusy : status.getLsbD 0 = true) (hlate : s.budgetMs.toNat < s.nextElapsed.toNat) :
    core.run 3 s = .next (
      faultedWith (wokenAfter s earlier echo status writes reads wakes) .waitTimeout s.nextElapsed
        (s.budgetMs.setWidth 33)) := by
  rw [h.run_asleep hbusy 1, run_succ (step_asleepAfter h.not_reset h.wakes_eq), if_pos hlate]
  rfl

/-! ### From the request on -/

/-- `WAIT_READY` past its checks starts the wait (R140, R142). -/
theorem exec_waitReady_starts {pollMs budgetMs : BitVec 32} (hfault : s.fault.kind = none) (hpins : s.pinsValid = true)
    (hint : pollMs ≠ 0) (hroom : ¬ Overflows s 11 2) :
    exec (.waitReady pollMs budgetMs) s = .next (s.startWait pollMs budgetMs) := by
  obtain ⟨-, hexec⟩ := Proofs.waitReadyMeaning pollMs budgetMs s
  rw [hexec, if_neg (not_not.2 hfault), if_neg (by simp [hpins]), if_neg hint, if_neg hroom,
    ← State.issuePoll_eq_polling, State.startWait]

theorem pollSent_startWait (pollMs budgetMs : BitVec 32) (hr : s.resetPin = false) (hearlier : earlier.length = s.respOwed)
    (hw : s.txReplies = writes) (hrx : s.rx = earlier.map .byte ++ reads) (hwakes : s.wakes = wakes) :
    PollSent (s.startWait pollMs budgetMs) earlier writes reads wakes :=
  ⟨hr, rfl, rfl, hearlier, hw, hrx, hwakes⟩

/-- `k` polls after the first, the intervals and the transfers counted from the request. -/
theorem PolledOn.of_startWait {pollMs budgetMs : BitVec 32} {k : Nat} (h : PolledOn k (s.startWait pollMs budgetMs) u) :
    u.elapsedMs.toNat = k * pollMs.toNat ∧
      u.tx = s.tx ++ [s.cbuf ++ pollTxn s] ++ List.replicate k (pollTxn s) := by
  refine ⟨h.elapsed_eq.trans (Nat.zero_add _), ?_⟩
  rw [h.tx_eq, State.startWait_tx, State.pollBytes_eq_pollTxn]
  rfl

/-! ### How many intervals the budget holds (R148) -/

theorem mul_le_budget_of_lt_maxPolls {pollMs budgetMs : BitVec 32} {k : Nat} (h : k < maxPolls pollMs budgetMs) :
    k * pollMs.toNat ≤ budgetMs.toNat :=
  Nat.mul_le_of_le_div _ _ _ (Nat.le_of_lt_succ h)

theorem budget_lt_maxPolls_mul {pollMs : BitVec 32} (budgetMs : BitVec 32) (h : pollMs ≠ 0) :
    budgetMs.toNat < maxPolls pollMs budgetMs * pollMs.toNat :=
  Nat.mul_comm _ _ ▸ Nat.lt_mul_div_succ _ (Nat.pos_of_ne_zero fun hzero => h (BitVec.eq_of_toNat_eq hzero))

end Sys2Proof.Machine
end

section
/-! PROOFS. The two ends of a wait that is always answered, settled. -/

namespace Sys2Proof.Proofs
open Sys2Proof.Machine Sys2Proof.Spec

/-- Settles O46: all polls but the last are busy rounds within the budget, and the last goes past it. -/
theorem waitTimesOutAfterAllPolls : Obligations.WaitTimesOutAfterAllPolls := by
  rintro s pollMs budgetMs polls earlier writes reads wakes ⟨hr, -, -⟩ hfault hpins hint hroom hearlier hcount hbusy hw
    hrx hwakes
  obtain rfl | ⟨init, last, rfl⟩ := polls.eq_nil_or_concat'
  · exact absurd hcount (Nat.succ_ne_zero _).symm
  rw [List.length_append, List.length_singleton] at hcount hw hwakes
  obtain ⟨hinit, hlast⟩ := List.forall_mem_append.1 hbusy
  have hsent : PollSent (s.startWait pollMs budgetMs) earlier (List.replicate init.length .ok ++ .ok :: writes)
      (init.flatMap pollBytesIn ++ (pollBytesIn last ++ reads)) (init.length + (wakes + 1)) :=
    pollSent_startWait _ _ hr hearlier (by simp [hw, List.replicate_succ']) (by simp [hrx]) (by omega)
  have hwithin : 0 + init.length * pollMs.toNat ≤ budgetMs.toNat := by
    rw [Nat.zero_add]
    exact mul_le_budget_of_lt_maxPolls (by omega)
  have hpast : budgetMs.toNat < (init.length + 1) * pollMs.toNat := hcount ▸ budget_lt_maxPolls_mul budgetMs hint
  obtain ⟨v, hrun, hlastSent, hon⟩ := hsent.busy_rounds hinit hwithin
  obtain ⟨-, htx⟩ := hon.of_startWait
  have hbudget : v.budgetMs = budgetMs := hon.budgetMs_eq
  have hnofault : v.fault.kind = none := hon.fault_eq ▸ hfault
  have hnext : v.nextElapsed.toNat = (init.length + 1) * pollMs.toNat :=
    (hon.toNat_nextElapsed hwithin).trans (Nat.zero_add _)
  have hend := hlastSent.run_timeout (hlast last (List.mem_singleton_self _)) (by rwa [hbudget, hnext])
  rw [List.length_append, List.length_singleton]
  refine ⟨_, _, exec_waitReady_starts hfault hpins hint hroom, (hrun 3).trans hend, rfl, rfl, hnext, ?_, rfl, rfl, rfl,
    htx, rfl, rfl, rfl⟩
  rw [← hbudget]
  exact if_pos hnofault

/-- Settles O47: the busy rounds are within the budget, and the poll after them is answered ready. -/
theorem waitReturnsOkWhenReady : Obligations.WaitReturnsOkWhenReady := by
  rintro s pollMs budgetMs polls earlier echo status writes reads wakes ⟨hr, -, -⟩ hfault hpins hint hroom hearlier hcount
    hbusy hready hw hrx hwakes
  have hsent : PollSent (s.startWait pollMs budgetMs) earlier (List.replicate polls.length .ok ++ .ok :: writes)
      (polls.flatMap pollBytesIn ++ (pollBytesIn (echo, status) ++ reads)) (polls.length + wakes) :=
    pollSent_startWait _ _ hr hearlier (by simp [hw, List.replicate_succ']) (by simp [hrx]) hwakes
  obtain ⟨v, hrun, hlastSent, hon⟩ := hsent.busy_rounds hbusy (by simpa using mul_le_budget_of_lt_maxPolls hcount)
  obtain ⟨helapsed, htx⟩ := hon.of_startWait
  refine ⟨_, _, exec_waitReady_starts hfault hpins hint hroom, (hrun 2).trans (hlastSent.run_ready hready), rfl, rfl,
    hon.fault_eq, helapsed, rfl, rfl, ?_, rfl, rfl, htx, rfl, rfl, hlastSent.wakes_eq⟩
  split <;> rfl

end Sys2Proof.Proofs
end

section
/-! PROOFS. A wait whose every call is answered, whatever the answers, ends: each reply brings it nearer to its last sleep
(R149). -/

namespace Sys2Proof.Machine
open Sys2Proof.Spec

variable {s t : State}

/-! ### What is left of a wait -/

/-- The sleeps a wait can still make: those within the budget, and the one that goes past it (R148). -/
def State.sleepsLeft (s : State) : Nat := (s.budgetMs.toNat - s.elapsedMs.toNat) / s.pollMs.toNat + 1

theorem State.sleepsLeft_le_maxPolls (s : State) : s.sleepsLeft ≤ maxPolls s.pollMs s.budgetMs :=
  Nat.succ_le_succ (Nat.div_le_div_right (Nat.sub_le _ _))

/-- A `Wake` within the budget leaves one sleep less. -/
theorem State.sleepsLeft_of_wake (hint : s.pollMs ≠ 0) (he : s.elapsedMs.toNat ≤ s.budgetMs.toNat)
    (hwithin : s.nextElapsed.toNat ≤ s.budgetMs.toNat) :
    s.sleepsLeft = ({ s with elapsedMs := s.nextElapsed } : State).sleepsLeft + 1 := by
  have hpos : 0 < s.pollMs.toNat := Nat.pos_of_ne_zero fun hzero => hint (BitVec.eq_of_toNat_eq hzero)
  rw [toNat_nextElapsed he] at hwithin
  rw [State.sleepsLeft, State.sleepsLeft, toNat_nextElapsed he, ← Nat.sub_sub,
    Nat.div_eq_sub_div hpos (by omega)]

/-- The replies a wait can still take: three for each sleep left, but for those already taken of the running poll. -/
def State.repliesLeft (s : State) : Nat :=
  match s.spuState with
  | .idle => 0
  | .pollTx => 3 * s.sleepsLeft
  | .pollRx => 3 * s.sleepsLeft - 1
  | .sleep => 3 * s.sleepsLeft - 2

theorem State.repliesLeft_of_idle (h : s.spuState = .idle) : s.repliesLeft = 0 := by simp [State.repliesLeft, h]
theorem State.repliesLeft_of_pollTx (h : s.spuState = .pollTx) : s.repliesLeft = 3 * s.sleepsLeft := by
  simp [State.repliesLeft, h]
theorem State.repliesLeft_of_pollRx (h : s.spuState = .pollRx) : s.repliesLeft = 3 * s.sleepsLeft - 1 := by
  simp [State.repliesLeft, h]
theorem State.repliesLeft_of_sleep (h : s.spuState = .sleep) : s.repliesLeft = 3 * s.sleepsLeft - 2 := by
  simp [State.repliesLeft, h]

theorem State.sleepsLeft_pos (s : State) : 0 < s.sleepsLeft := Nat.succ_pos _

theorem State.repliesLeft_pos (h : s.spuState ≠ .idle) : 0 < s.repliesLeft := by
  have hpos := s.sleepsLeft_pos
  cases hs : s.spuState with
  | idle => exact absurd hs h
  | pollTx => rw [repliesLeft_of_pollTx hs]; omega
  | pollRx => rw [repliesLeft_of_pollRx hs]; omega
  | sleep => rw [repliesLeft_of_sleep hs]; omega

theorem State.repliesLeft_le (s : State) : s.repliesLeft ≤ 3 * s.sleepsLeft := by
  unfold State.repliesLeft
  split <;> omega

/-! ### A reply brings the end nearer -/

/-- A running wait with a reply to come for each call it can still make: a `TxWrite` before each sleep but one whose
poll is sent already, and two bytes for each poll not yet sent. -/
structure Answered (s : State) : Prop where
  inv : Inv s
  not_reset : s.resetPin = false
  writes : s.sleepsLeft ≤ s.txReplies.length + if s.spuState = .pollTx then 0 else 1
  wakes : s.sleepsLeft ≤ s.wakes
  reads : s.respOwed + 2 * (s.sleepsLeft - 1) ≤ s.rx.length

/-- From `s` to `t` the wait has come nearer to its end, and is still answered if it goes on. -/
def Nearer (s t : State) : Prop := t.repliesLeft < s.repliesLeft ∧ (t.spuState ≠ .idle → Answered t)

theorem nearer_of_idle (hs : s.spuState ≠ .idle) (ht : t.spuState = .idle) : Nearer s t :=
  ⟨by rw [State.repliesLeft_of_idle ht]; exact State.repliesLeft_pos hs, fun h => absurd ht h⟩

theorem Answered.nearer_onPollWrite (h : Answered s) (hs : s.spuState = .pollTx) : Nearer s s.onPollWrite := by
  have hpos := s.sleepsLeft_pos
  have hwrites := h.writes
  rw [if_pos hs] at hwrites
  have hinv := h.inv.onPollWrite hs
  obtain ⟨hnone, -⟩ | hfault | ⟨rest, hw, e⟩ := onPollWrite_outcomes s
  · rw [hnone, List.length_nil] at hwrites
    omega
  · exact nearer_of_idle (by simp [hs]) hfault.1
  · rw [hw, List.length_cons] at hwrites
    rw [e] at hinv ⊢
    have hsame : ({ s with txReplies := rest, spuState := .pollRx } : State).sleepsLeft = s.sleepsLeft := rfl
    refine ⟨?_, fun _ => ⟨hinv, h.not_reset, hwrites, h.wakes, h.reads⟩⟩
    rw [State.repliesLeft_of_pollTx hs, State.repliesLeft_of_pollRx rfl, hsame]
    omega

theorem Answered.nearer_onPollRead (h : Answered s) (hs : s.spuState = .pollRx) : Nearer s s.onPollRead := by
  have hpos := s.sleepsLeft_pos
  have hwait : s.spuState ≠ .idle := by simp [hs]
  have hwrites := h.writes
  rw [if_neg (by simp [hs])] at hwrites
  have hreads := h.reads
  have hinv := h.inv.onPollRead hs
  obtain ⟨hnone, -⟩ | hfault | ⟨r, rest, hlen, hrx, e⟩ := onPollRead_outcomes s
  · obtain ⟨reply, rest, hsome, -⟩ := collect_replies (n := s.respOwed) (evs := s.rx) (by omega)
    simp [hnone] at hsome
  · exact nearer_of_idle hwait hfault.1
  · rw [hrx, List.length_append, List.length_map, hlen] at hreads
    rcases busyTest_cases (({ s with rx := rest } : State).storePoll r) with ⟨_, htest⟩ | ⟨_, htest⟩
    · rw [e, htest] at hinv ⊢
      have hsame : ({ ({ s with rx := rest } : State).storePoll r with spuState := .sleep } : State).sleepsLeft =
        s.sleepsLeft := rfl
      have hleft : 0 + 2 * (s.sleepsLeft - 1) ≤ rest.length := by omega
      refine ⟨?_, fun _ => ⟨hinv, h.not_reset, hwrites, h.wakes, hleft⟩⟩
      rw [State.repliesLeft_of_pollRx hs, State.repliesLeft_of_sleep rfl, hsame]
      omega
    · rw [e, htest]
      exact nearer_of_idle hwait rfl

theorem Answered.nearer_onSleep (h : Answered s) (hs : s.spuState = .sleep) : Nearer s s.onSleep := by
  have hpos := s.sleepsLeft_pos
  have hwait : s.spuState ≠ .idle := by simp [hs]
  have hwrites := h.writes
  rw [if_neg (by simp [hs])] at hwrites
  have hwakes := h.wakes
  have hreads := h.reads
  obtain ⟨-, howed⟩ := h.inv.sleep_empty hs
  obtain ⟨helapsed, -⟩ := h.inv.wait_elapsed hwait
  have hinv := h.inv.onSleep hs
  obtain ⟨hnone, -⟩ | hfault | ⟨wakes, hw, hwithin, e⟩ := onSleep_outcomes s
  · omega
  · exact nearer_of_idle hwait hfault.1
  · rw [e] at hinv ⊢
    set t : State := polling { s with wakes := wakes, elapsedMs := s.nextElapsed }
    have hless : s.sleepsLeft = t.sleepsLeft + 1 :=
      State.sleepsLeft_of_wake (h.inv.wait_interval hwait) helapsed hwithin
    have hleft := t.sleepsLeft_pos
    refine ⟨?_, fun _ => ⟨hinv, h.not_reset, ?_, ?_, ?_⟩⟩
    · rw [State.repliesLeft_of_sleep hs, State.repliesLeft_of_pollTx rfl]
      omega
    · show t.sleepsLeft ≤ s.txReplies.length
      omega
    · show t.sleepsLeft ≤ wakes
      omega
    · show s.respOwed + 2 + 2 * (t.sleepsLeft - 1) ≤ s.rx.length
      omega

theorem Answered.step_nearer (h : Answered s) (hwait : s.spuState ≠ .idle) : ∃ t, step s = .next t ∧ Nearer s t := by
  cases hs : s.spuState with
  | idle => exact absurd hs hwait
  | pollTx => exact ⟨_, step_of_pollTx h.not_reset hs, h.nearer_onPollWrite hs⟩
  | pollRx => exact ⟨_, step_of_pollRx h.not_reset hs, h.nearer_onPollRead hs⟩
  | sleep => exact ⟨_, step_of_sleep h.not_reset hs, h.nearer_onSleep hs⟩

/-- By induction on a bound of the replies left. -/
theorem answered_wait_ends {n : Nat} (hn : s.repliesLeft ≤ n) (h : s.spuState ≠ .idle → Answered s) :
    ∃ (k : Nat) (u : State), k ≤ n ∧ core.run k s = .next u ∧ u.spuState = .idle := by
  induction n generalizing s with
  | zero =>
    have hidle : s.spuState = .idle := by
      by_contra hwait
      exact absurd hn (Nat.not_le.2 (State.repliesLeft_pos hwait))
    exact ⟨0, s, Nat.le_refl 0, rfl, hidle⟩
  | succ n ih =>
    by_cases hidle : s.spuState = .idle
    · exact ⟨0, s, Nat.zero_le _, rfl, hidle⟩
    · obtain ⟨t, hstep, hless, ht⟩ := (h hidle).step_nearer hidle
      obtain ⟨k, u, hk, hrun, hu⟩ := ih (by omega) ht
      exact ⟨k + 1, u, Nat.succ_le_succ hk, (run_succ hstep).trans hrun, hu⟩

end Sys2Proof.Machine
end

section
/-! PROOFS. The end of a wait that is always answered, settled. -/

namespace Sys2Proof.Proofs
open Sys2Proof.Machine Sys2Proof.Spec

/-- Settles O48: a wait has at most `q + 1` sleeps left, so the replies given are enough. -/
theorem waitEndsIfAnswered : Obligations.WaitEndsIfAnswered := by
  intro s hinv hr _ hwrites hwakes hreads
  have hsleeps := s.sleepsLeft_le_maxPolls
  have hbound : s.repliesLeft ≤ 3 * maxPolls s.pollMs s.budgetMs := s.repliesLeft_le.trans (by omega)
  exact answered_wait_ends hbound fun _ =>
    ⟨hinv, hr, (hsleeps.trans hwrites).trans (Nat.le_add_right _ _), hsleeps.trans hwakes, by omega⟩

end Sys2Proof.Proofs
end

section
/-! PROOFS. What faults and refusals leave alone, the fault gate, and that every step answers (R164 to R172). -/

namespace Sys2Proof.Machine
open Sys2Proof.Spec

variable {i : Instr} {s t : State}

/-! ### What a fault register holds stays (R172) -/

/-- Neither fault register that holds a fault has changed. -/
def KeepsFaults (s t : State) : Prop :=
  (s.fault.kind ≠ none → t.fault = s.fault) ∧ (s.cleanupFault.kind ≠ none → t.cleanupFault = s.cleanupFault)

theorem KeepsFaults.of_eq (hf : t.fault = s.fault) (hc : t.cleanupFault = s.cleanupFault) : KeepsFaults s t :=
  ⟨fun _ => hf, fun _ => hc⟩

theorem KeepsFaults.refl (s : State) : KeepsFaults s s := .of_eq rfl rfl

/-- The latches of R170 write only a register that is free. -/
theorem raiseFault_keepsFaults (s : State) (kind : FaultKind) (info0 info1 : BitVec 33) :
    KeepsFaults s (s.raiseFault kind info0 info1) := by
  rw [raiseFault_eq_faultedWith]
  exact ⟨fun hf => if_neg hf, fun hc => if_neg fun hfree => hc hfree.2⟩

theorem awaitWrite_keepsFaults {onOk : State → State} (h : ∀ u, KeepsFaults u (onOk u)) :
    KeepsFaults s (s.awaitWrite onOk) := by
  rcases awaitWrite_cases s onOk with ⟨_, e⟩ | ⟨_, rest, kind, info0, info1, _, _, _, e⟩ | ⟨rest, _, e⟩ <;> rw [e]
  · exact .refl s
  · exact raiseFault_keepsFaults { s with txReplies := rest } kind info0 info1
  · exact h { s with txReplies := rest }

theorem awaitRead_keepsFaults {onBytes : State → Bytes → State} (h : ∀ u r, KeepsFaults u (onBytes u r)) :
    KeepsFaults s (s.awaitRead onBytes) := by
  rcases awaitRead_cases s onBytes with ⟨_, e⟩ | ⟨rest, kind, info1, _, e⟩ | ⟨r, rest, _, e⟩ <;> rw [e]
  · exact .refl s
  · exact raiseFault_keepsFaults { s with rx := rest } kind 1 info1
  · exact h { s with rx := rest } r

theorem onPollWrite_keepsFaults (s : State) : KeepsFaults s s.onPollWrite :=
  awaitWrite_keepsFaults fun _ => .of_eq rfl rfl

theorem onPollRead_keepsFaults (s : State) : KeepsFaults s s.onPollRead := by
  refine awaitRead_keepsFaults fun u r => ?_
  rcases busyTest_cases (u.storePoll r) with ⟨_, e⟩ | ⟨_, e⟩ <;> rw [e] <;> exact .of_eq rfl rfl

theorem onSleep_keepsFaults (s : State) : KeepsFaults s s.onSleep := by
  rcases onSleep_cases s with ⟨_, e⟩ | ⟨k, _, e⟩ <;> rw [e]
  · exact .refl s
  · rcases afterSleep_cases { s with wakes := k } with ⟨_, e⟩ | ⟨_, e⟩ <;> rw [e]
    · exact raiseFault_keepsFaults { s with wakes := k, elapsedMs := s.nextElapsed } .waitTimeout s.nextElapsed _
    · exact .of_eq rfl rfl

theorem onFlushWrite_keepsFaults (s : State) : KeepsFaults s s.onFlushWrite := by
  refine awaitWrite_keepsFaults fun u => ?_
  split <;> exact .of_eq rfl rfl

theorem onFlushRead_keepsFaults (s : State) : KeepsFaults s s.onFlushRead :=
  awaitRead_keepsFaults fun _ _ => .of_eq rfl rfl

/-- An instruction writes neither register: faults come only from replies (R161). -/
theorem exec_keepsFaults (h : exec i s = .next t) : KeepsFaults s t := by
  rcases exec_cases h with ⟨reason, rfl⟩ | ⟨dir, sel, desel, _, _, _, rfl⟩ | ⟨hz, _, _, _, rfl⟩ | ⟨e, r, _, _, _, _, rfl⟩ |
    ⟨_, _, rfl⟩ | ⟨e, r, x, _, _, _, _, _, rfl⟩ | ⟨pollMs, budgetMs, _, _, _, _, _, _, rfl⟩
  · exact .of_eq rfl rfl
  · exact .of_eq rfl rfl
  · exact .of_eq rfl rfl
  · exact .of_eq rfl rfl
  · exact .of_eq (State.beginFlush_fault ..) (State.beginFlush_cleanupFault ..)
  · exact .of_eq (State.beginFlush_fault ..) (State.beginFlush_cleanupFault ..)
  · exact .of_eq rfl rfl

theorem step_keepsFaults (hr : s.resetPin = false) (h : step s = .next t) : KeepsFaults s t := by
  rcases step_cases h with ⟨hreset, _⟩ | ⟨_, _, rfl⟩ | ⟨_, _, rfl⟩ | ⟨_, _, rfl⟩ | ⟨_, _, _, rfl⟩ | ⟨_, _, _, rfl⟩ |
    ⟨_, _, _, _, rfl⟩ | ⟨_, _, _, o, rest, i, _, _, hexec⟩ | ⟨_, _, _, o, rest, _, _, _, rfl⟩
  · simp [hr] at hreset
  · exact onPollWrite_keepsFaults s
  · exact onPollRead_keepsFaults s
  · exact onSleep_keepsFaults s
  · exact onFlushWrite_keepsFaults s
  · exact onFlushRead_keepsFaults s
  · exact .refl t
  · simpa only [KeepsFaults, State.accept_fault, State.accept_cleanupFault] using exec_keepsFaults hexec
  · exact .of_eq (State.accept_fault s o rest) (State.accept_cleanupFault s o rest)

/-! ### The fault gate (R171) -/

theorem request_gate_faulted {checks : List Check} {body : State → State} (hf : s.fault.kind ≠ none) :
    s.request (s.gate :: checks) body = .next (refusedWith s .faulted) := by
  rw [request_gate, if_neg hf]
  rfl

theorem fireAndForget_faulted {checks : List Check} {e : Bytes} (hf : s.fault.kind ≠ none) :
    s.fireAndForget (s.gate :: checks) e = .next (refusedWith s .faulted) :=
  request_gate_faulted hf

theorem emitItem_faulted {checks : List Check} {e : Bytes} {r : Nat} (hf : s.fault.kind ≠ none) :
    s.emitItem checks e r = .next (refusedWith s .faulted) :=
  request_gate_faulted hf

/-- The gate is the first check of every request but `POWER_DOWN`, and of every stream item (log 9). -/
theorem exec_of_faulted (hf : s.fault.kind ≠ none) (hpd : i ≠ .powerDown) (hres : isReservedInstr i = false) :
    exec i s = .next (refusedWith s .faulted) := by
  cases i with
  | powerDown => contradiction
  | reserved12 | reserved14 | reserved18 => contradiction
  | powerUp | writeEnable | bulkErase | sectorErase => exact fireAndForget_faulted hf
  | mpsseSetLow | mpsseOut | mpsseOutIn | mpsseWait => exact emitItem_faulted hf
  | spiIdentify | spiPowerUp | spiPowerDown | spiWriteEnable | spiBulkErase | spiSectorErase64k | spiPageProgram |
      spiRead | spiReadStatus => exact emitItem_faulted hf
  | identify => rw [exec_identify, if_pos hf]
  | _ =>
    dsimp only [exec]
    exact request_gate_faulted hf

/-- `POWER_DOWN` neither reads nor writes `FAULT` (R122, R171). -/
theorem exec_powerDown_withFault (f : FaultReg) (h : exec .powerDown s = .next t) :
    exec .powerDown { s with fault := f } = .next { t with fault := f } := by
  obtain rfl := Host.Outcome.next.inj ((fireAndForget_next s [Config.spiPowerDown]).symm.trans h)
  refine (fireAndForget_next { s with fault := f } [Config.spiPowerDown]).trans (congrArg _ ?_)
  dsimp only [Overflows]
  split_ifs <;> rfl

/-! ### A request that ends at once (R75, R167) -/

theorem beginFlush_ok_or_busy (s : State) (x : Extract) :
    (s.beginFlush x).result = .ok [] ∨ (s.beginFlush x).busy = true := by
  by_cases hb : s.cbuf = []
  · exact .inl (by rw [State.beginFlush_empty s x hb])
  · exact .inr (by simp [State.beginFlush_sends s x hb, State.busy])

/-- A refusal is the only way for an instruction to end at once without `OK([])`. -/
theorem exec_refused_or_ok_or_busy (h : exec i s = .next t) :
    (∃ reason, t = refusedWith s reason) ∨ t.result = .ok [] ∨ t.busy = true := by
  rcases exec_cases h with ⟨reason, rfl⟩ | ⟨dir, sel, desel, _, _, _, rfl⟩ | ⟨hz, _, _, _, rfl⟩ | ⟨e, r, _, _, _, _, rfl⟩ |
    ⟨_, _, rfl⟩ | ⟨e, r, x, _, _, _, _, _, rfl⟩ | ⟨pollMs, budgetMs, _, _, _, _, _, _, rfl⟩
  · exact .inl ⟨reason, rfl⟩
  · exact .inr (.inl rfl)
  · exact .inr (.inl rfl)
  · exact .inr (.inl rfl)
  · exact .inr (beginFlush_ok_or_busy s .nothing)
  · exact .inr (beginFlush_ok_or_busy _ x)
  · exact .inr (.inr rfl)

/-! ### Every step answers -/

/-- A reset, a busy block and an offer each have an answer; with nothing to react to, the state stays (R176; log 29). -/
theorem step_answers (s : State) : ∃ t, step s = .next t := by
  cases hr : s.resetPin with
  | true => exact ⟨_, step_of_reset hr⟩
  | false =>
    by_cases hbusy : s.spuState ≠ .idle ∨ s.flush ≠ .idle
    · obtain ⟨t, ht, -⟩ := step_busy_holdsPort hr hbusy
      exact ⟨t, ht⟩
    · obtain ⟨hs, hf⟩ : s.spuState = .idle ∧ s.flush = .idle := by simpa using hbusy
      cases ho : s.offers with
      | nil => exact ⟨s, by simp [step, hr, hs, hf, ho]⟩
      | cons o rest =>
        cases hd : decode o with
        | ok i =>
          rw [step_of_ready ⟨hr, hs, hf⟩ ho hd]
          exact exec_answers i _
        | error reason => exact ⟨_, step_of_ready_undecoded ⟨hr, hs, hf⟩ ho hd⟩

/-! ### The refusal codes (R165) -/

theorem Reason.mem_reasonNumbers (reason : Reason) : (reason, reason.code) ∈ reasonNumbers := by
  cases reason <;> decide

theorem reasonNumbers_codes_distinct :
    ∀ pair ∈ reasonNumbers, ∀ other ∈ reasonNumbers, pair.2 = other.2 → pair = other := by decide

end Sys2Proof.Machine
end

section
/-! PROOFS. The statements about faults and refusals, settled. -/

namespace Sys2Proof.Proofs
open Sys2Proof.Machine Sys2Proof.Spec

/-- Settles O16: without reset, by the cases of a step; with it, the step is the reset. -/
theorem onlyResetClearsAFault : Obligations.OnlyResetClearsAFault := by
  intro s t h
  refine ⟨fun hr => (step_keepsFaults hr h).1, fun hr => (step_keepsFaults hr h).2, fun hr => ?_⟩
  obtain rfl := Host.Outcome.next.inj ((step_of_reset hr).symm.trans h)
  exact ⟨State.applyReset_fault s, State.applyReset_cleanupFault s⟩

/-- Settles O50: the gate comes first but for `POWER_DOWN`, which runs on the fault-free state as on this one. -/
theorem faultGate : Obligations.FaultGate := fun _ s hf =>
  ⟨exec_of_faulted hf, fun hres => exec_of_reserved hres s, fun _ h =>
    exec_powerDown_withFault (s := { s with fault := ⟨none, 0, 0⟩ }) s.fault h⟩

/-- Settles O51: of the three ways for an instruction to end or go on, only the refusal leaves a refusal and an idle block. -/
theorem refusalChangesOnlyResult : Obligations.RefusalChangesOnlyResult := by
  intro i s t reason _ h hidle hresult
  obtain ⟨found, rfl⟩ | hok | hbusy := exec_refused_or_ok_or_busy h
  · obtain rfl : found = reason := Result.refused.inj hresult
    rfl
  · simp [hok] at hresult
  · simp [hidle] at hbusy

/-- Settles O12, by what the step reacts to. -/
theorem everyStepAnswersNext : Obligations.EveryStepAnswersNext := step_answers

/-- Settles O49, by the three cases of the first-wins latches. -/
theorem faultEntry : Obligations.FaultEntry := raiseFault_eq_faultedWith

/-- Settles O60: the list has every reason under its code, and no code twice. -/
theorem refusalCodes : Obligations.RefusalCodes :=
  ⟨by decide, Reason.mem_reasonNumbers, fun reason other h =>
    congrArg Prod.fst <|
      reasonNumbers_codes_distinct _ reason.mem_reasonNumbers _ other.mem_reasonNumbers h⟩

end Sys2Proof.Proofs
end
